-- ==== Sys2Proof/Word.lean ====
section
/-! DEFINITION. The one unit the block moves: the byte (00_scope R6 row BYTE, R8). -/
namespace Sys2Proof

/-- A byte, 8 bits, bit 0 the least significant (R8). -/
abbrev Byte := BitVec 8

end Sys2Proof
end

