-- ==== Sys2Proof/Config.lean ====
section
/-! DEFINITION. The parameters of the block and of its host, 00_scope R6 and R7, and the one value the spec
leaves open with no default (70_reset R214). -/
namespace Sys2Proof

/-! ### The named parameters a model may vary (R6; 92_eei D8, D9, D10) -/

/-- `RESYNC_SKIP`: the two values the source names (93 U2 excludes every other). -/
inductive ResyncSkip where
  | one
  | two
  deriving DecidableEq, Repr

/-- How many bytes a skip drops. -/
def ResyncSkip.bytes : ResyncSkip → Nat
  | .one => 1
  | .two => 2

/-- `DRAIN_POLICY` (R6, 41 R120). -/
inductive DrainPolicy where
  | quiescent
  | firstNoFrame
  deriving DecidableEq, Repr

/-- The immutable configuration record of the block (R6, 10 R25). `bufCap` is `none` when `BUF_CAP` is unbounded. -/
structure Params where
  resyncSkip  : ResyncSkip
  drainPolicy : DrainPolicy
  bufCap      : Option Nat
  deriving DecidableEq, Repr

/-- The values this hardware takes (R6): skip 2, quiescent, unbounded. -/
def Params.hw : Params :=
  { resyncSkip := .two, drainPolicy := .quiescent, bufCap := none }

/-! ### The whole record of R6 -/

/-- The configuration record of R6, its thirteen parameters: the constants of the frame format as fields, and the three
a model may vary in `params`. `HEADER` is the pair `header0`, `header1`. -/
structure BlockConfig where
  /-- `HEADER`, first byte on the wire. -/
  header0 : Byte
  /-- `HEADER`, second byte on the wire. -/
  header1 : Byte
  /-- `HEADER_LEN`. -/
  headerLen : Nat
  /-- `CMD_LEN`. -/
  cmdLen : Nat
  /-- `LEN_LEN`, a little-endian unsigned number. -/
  lenLen : Nat
  /-- `CHK_LEN`. -/
  chkLen : Nat
  /-- `MAX_PAYLOAD`: the largest payload the length field can state. -/
  maxPayload : Nat
  /-- `MIN_FRAME`: 2 + 1 + 2 + 0 + 1. -/
  minFrame : Nat
  /-- `MAX_FRAME`: 65535 + 6. -/
  maxFrame : Nat
  /-- `BYTE`: bits of the unit the block moves; the width of the type `Byte`. -/
  byteBits : Nat
  /-- `NUM_COMMANDS`: named command codes, 0x01 to 0x08. -/
  numCommands : Nat
  /-- `RESYNC_SKIP`, `DRAIN_POLICY`, `BUF_CAP`. -/
  params : Params
  deriving DecidableEq, Repr

/-- The values this hardware takes (R6). -/
abbrev Config.block : BlockConfig :=
  { header0 := 0xAA
    header1 := 0x55
    headerLen := 2
    cmdLen := 1
    lenLen := 2
    chkLen := 1
    maxPayload := 65535
    minFrame := 6
    maxFrame := 65541
    byteBits := 8
    numCommands := 8
    params := Params.hw }

/-! ### Its fields, and the offsets they give -/

abbrev Config.header0 : Byte := Config.block.header0
abbrev Config.header1 : Byte := Config.block.header1
abbrev Config.maxPayload : Nat := Config.block.maxPayload
abbrev Config.minFrame : Nat := Config.block.minFrame
abbrev Config.maxFrame : Nat := Config.block.maxFrame
abbrev Config.numCommands : Nat := Config.block.numCommands

/-- Offset of the command in a frame (30 R60): behind the header. -/
abbrev Config.commandAt : Nat := Config.block.headerLen
/-- Offset of the length field's low byte: behind the command. -/
abbrev Config.lengthAt : Nat := Config.commandAt + Config.block.cmdLen
/-- Offset of the payload: behind the length field, the 5 of `5 + length + 1` (41 R117). -/
abbrev Config.payloadAt : Nat := Config.lengthAt + Config.block.lenLen

/-- A finite `BUF_CAP` is at least the largest frame (R6: "a finite value of at least 65541"). -/
def Params.wf (p : Params) : Bool :=
  match p.bufCap with
  | none => true
  | some cap => decide (Config.maxFrame ≤ cap)

/-! ### Parameters of the surrounding software (R7) -/

/-- The format tag of a source (R7, 42 R148). -/
inductive AudioFormat where
  | pcm
  | mp3
  deriving DecidableEq, Repr

/-- Format tags: PCM = 0x00, MP3 = 0x01 (R7). -/
def AudioFormat.tag : AudioFormat → Byte
  | .pcm => 0x00
  | .mp3 => 0x01

/-- Chunk sizes of a Play operation: 512 bytes PCM, 1024 bytes MP3 (R7). -/
def AudioFormat.chunkBytes : AudioFormat → Nat
  | .pcm => 512
  | .mp3 => 1024

/-- The fixed audio parameters handed to the WAV writer (R7). -/
structure WavParams where
  sampleRateHz  : Nat
  bitsPerSample : Nat
  channels      : Nat
  deriving DecidableEq, Repr

/-- "8000 Hz, 16-bit, mono" (R7). -/
def Config.wavParams : WavParams :=
  { sampleRateHz := 8000, bitsPerSample := 16, channels := 1 }

/-- `RESET_PER_OPERATION` (70 R214, 92 D12): OPEN. A constant with no body: nothing can be proved about its value
(log entry 13). -/
opaque Config.resetPerOperation : Bool

end Sys2Proof
end

