-- ==== Sys2Proof/Syntax.lean ====
section
/-! DEFINITION. The instructions: the nine frame rows and the seven operation rows of spec/opcode_table.json
(30_encoding R75, R78; 42_wire_commands R141 to R149). -/
namespace Sys2Proof

/-- Which end of the link a wire command is at (42 R140: the semantics differ "in the sender and the receiver").
The received form carries the checksum byte that stood in the frame, since the device is an unconstrained source of
bytes (42 R152); the sent form carries none, since ENCODE computes it (40 R92). Log entries 3 and 4. -/
inductive Link where
  | send
  | recv (chk : Byte)
  deriving DecidableEq, Repr

/-- One constructor per row of the opcode table. A frame row's `payload` is the frame's payload, of any length the
format can state; the four start and stop commands are sent with an empty one by convention only (92 D16). -/
inductive Instr where
  /-- START_RECORD, code 0x01 (R141). -/
  | startRecord (link : Link) (payload : List Byte)
  /-- STOP_RECORD, code 0x02 (R142). -/
  | stopRecord (link : Link) (payload : List Byte)
  /-- AUDIO_DATA, code 0x03 (R143). -/
  | audioData (link : Link) (payload : List Byte)
  /-- START_PLAY, code 0x04 (R144). -/
  | startPlay (link : Link) (payload : List Byte)
  /-- STOP_PLAY, code 0x05 (R145). -/
  | stopPlay (link : Link) (payload : List Byte)
  /-- HANDSHAKE, code 0x06 (R146). -/
  | handshake (link : Link) (payload : List Byte)
  /-- ACK, code 0x07 (R147). -/
  | ack (link : Link) (payload : List Byte)
  /-- SET_FORMAT, code 0x08 (R148). -/
  | setFormat (link : Link) (payload : List Byte)
  /-- UNNAMED_COMMAND, any other code (R149). -/
  | unnamedCommand (command : Byte) (link : Link) (payload : List Byte)
  /-- CHECKSUM(s) (R90). -/
  | checksum (s : List Byte)
  /-- ENCODE(c, P) (R92). -/
  | encode (command : Byte) (payload : List Byte)
  /-- DECODE(s) (R93). -/
  | decode (s : List Byte)
  /-- RESET (R110). -/
  | reset
  /-- APPEND(chunk) (R111). -/
  | append (chunk : List Byte)
  /-- PARSE (R113). -/
  | parse
  /-- DRAIN (R120). -/
  | drain
  deriving DecidableEq, Repr

end Sys2Proof
end

