-- ==== Sys2Proof/Machine/Operands.lean ====
section
/-! DEFINITION. The operand forms: byte sequences, slices, the length field, the XOR fold and the frame built from
its fields (00_scope R8, R9; 30_encoding R60 to R65; 40_codec R90, R97). -/
namespace Sys2Proof.Machine

/-- `Xor(s)`, the XOR fold of R90: an accumulator of one byte, started at zero. -/
def xorFold (s : List Byte) : Byte := s.foldl (fun acc b => acc ^^^ b) 0

/-- `le16(lo, hi) = lo + 256 * hi`, a natural number, exact (R9, R40). -/
def le16 (lo hi : Byte) : Nat := lo.toNat + 256 * hi.toNat

/-- `lo8(n) = n mod 256` (R9). -/
def lo8 (n : Nat) : Byte := BitVec.ofNat 8 (n % 256)

/-- `hi8(n) = (n div 256) mod 256` (R9). -/
def hi8 (n : Nat) : Byte := BitVec.ofNat 8 (n / 256 % 256)

/-- `s[k]`, a byte read. Every read of the block stands behind a length test (R9, R123), so the value past the end
never enters a result (log entry 16; Laws/Parser.lean, `parseAt_reads_in_bounds`). -/
def byteAt (s : List Byte) (k : Nat) : Byte := s.getD k 0

/-- `s[a..b)`, offsets `a` inclusive to `b` exclusive (R8); also `MemRead` (R9). -/
def slice (s : List Byte) (a b : Nat) : List Byte := (s.drop a).take (b - a)

/-- The covered bytes of a frame: command, the two length bytes, payload (R65; R12 "covered bytes"). -/
def coveredBytes (command : Byte) (payload : List Byte) : List Byte :=
  command :: lo8 payload.length :: hi8 payload.length :: payload

/-- A frame laid out by R60 with the given byte in its checksum place. -/
def frameBytes (command : Byte) (payload : List Byte) (chk : Byte) : List Byte :=
  Config.header0 :: Config.header1 :: (coveredBytes command payload ++ [chk])

/-- The checksum the format asks for (R65). -/
def frameChecksum (command : Byte) (payload : List Byte) : Byte :=
  xorFold (coveredBytes command payload)

/-- A payload the length field can state (R60, R71). -/
def payloadFits (payload : List Byte) : Bool := decide (payload.length ≤ Config.maxPayload)

/-- The command value is none of the eight named ones (R70). -/
def isUnnamed (command : Byte) : Bool :=
  command == 0 || decide (Config.numCommands < command.toNat)

end Sys2Proof.Machine
end

