-- ==== Sys2Proof/WellFormed.lean ====
section
/-! DEFINITION. Which instruction terms stand for something the frame format can express (30_encoding R60, R70,
R71). The seven operations take any operand (R75); an oversize ENCODE is a well-formed request that is refused. -/
namespace Sys2Proof

open Machine

/-- The payload an instruction carries: a wire command's, or ENCODE's operand; the others carry none. -/
def Instr.payload : Instr → List Byte
  | .startRecord _ p => p
  | .stopRecord _ p => p
  | .audioData _ p => p
  | .startPlay _ p => p
  | .stopPlay _ p => p
  | .handshake _ p => p
  | .ack _ p => p
  | .setFormat _ p => p
  | .unnamedCommand _ _ p => p
  | .checksum _ => []
  | .encode _ p => p
  | .decode _ => []
  | .reset => []
  | .append _ => []
  | .parse => []
  | .drain => []

/-- A frame row's payload fits the length field (R71); UNNAMED_COMMAND carries one of its 248 values (R70). The
checksum byte of a received frame is not judged here: that is PARSE's work (log entry 4). -/
def Instr.wellFormed : Instr → Bool
  | .startRecord _ p => payloadFits p
  | .stopRecord _ p => payloadFits p
  | .audioData _ p => payloadFits p
  | .startPlay _ p => payloadFits p
  | .stopPlay _ p => payloadFits p
  | .handshake _ p => payloadFits p
  | .ack _ p => payloadFits p
  | .setFormat _ p => payloadFits p
  | .unnamedCommand c _ p => isUnnamed c && payloadFits p
  | .checksum _ => true
  | .encode _ _ => true
  | .decode _ => true
  | .reset => true
  | .append _ => true
  | .parse => true
  | .drain => true

end Sys2Proof
end

