-- ==== Sys2Proof/Decode.lean ====
section
/-! DEFINITION. From the bytes of one frame to the wire command they spell, and back (30_encoding R60, R67, R69,
R78). The seven operations have no bit pattern (R78, 92 D3), so no bytes decode to one and none has an encoding. -/
namespace Sys2Proof

open Machine

/-- Why a byte sequence is no wire command: the first of DECODE's reasons (40 R93) that its layout shows. -/
inductive DecodeError where
  /-- Fewer than six bytes. -/
  | tooShort
  /-- The first two bytes are not `AA 55`. -/
  | badHeader
  /-- The length is not six plus the length field. -/
  | lengthMismatch
  deriving DecidableEq, Repr

/-- The command map (R69, R70): eight named values, the other 248 unnamed. -/
def instrOfCommand (c : Byte) (d : Link) (p : List Byte) : Instr :=
  if c = 0x01 then .startRecord d p
  else if c = 0x02 then .stopRecord d p
  else if c = 0x03 then .audioData d p
  else if c = 0x04 then .startPlay d p
  else if c = 0x05 then .stopPlay d p
  else if c = 0x06 then .handshake d p
  else if c = 0x07 then .ack d p
  else if c = 0x08 then .setFormat d p
  else .unnamedCommand c d p

/-- Read one whole frame as the wire command that arrived, with the checksum byte it carries (log entry 4). -/
def decodeWire (s : List Byte) : Except DecodeError Instr :=
  if s.length < Config.minFrame then .error .tooShort
  else if byteAt s 0 ≠ Config.header0 ∨ byteAt s 1 ≠ Config.header1 then .error .badHeader
  else
    let n := le16 (byteAt s Config.lengthAt) (byteAt s (Config.lengthAt + 1))
    if s.length ≠ n + Config.minFrame then .error .lengthMismatch
    else .ok (instrOfCommand (byteAt s Config.commandAt) (.recv (byteAt s (Config.payloadAt + n)))
      (slice s Config.payloadAt (Config.payloadAt + n)))

/-- The checksum byte a command's frame carries: the sender computes it (40 R92), a received frame holds the byte it came
with. -/
def Link.checksum (c : Byte) (p : List Byte) : Link → Byte
  | .send => frameChecksum c p
  | .recv chk => chk

/-- The frame of a wire command at either end; a payload the length field cannot state has none (R71). -/
def encodeCommand (c : Byte) (d : Link) (p : List Byte) : Option (List Byte) :=
  if p.length > Config.maxPayload then none else some (frameBytes c p (d.checksum c p))

/-- The bytes of an instruction; a payload too long has none (R71), and the seven operations have none (R78). -/
def encode : Instr → Option (List Byte)
  | .startRecord d p => encodeCommand 0x01 d p
  | .stopRecord d p => encodeCommand 0x02 d p
  | .audioData d p => encodeCommand 0x03 d p
  | .startPlay d p => encodeCommand 0x04 d p
  | .stopPlay d p => encodeCommand 0x05 d p
  | .handshake d p => encodeCommand 0x06 d p
  | .ack d p => encodeCommand 0x07 d p
  | .setFormat d p => encodeCommand 0x08 d p
  | .unnamedCommand c d p => encodeCommand c d p
  | .checksum _ => none
  | .encode _ _ => none
  | .decode _ => none
  | .reset => none
  | .append _ => none
  | .parse => none
  | .drain => none

/-- The link of a command as its receiver sees it: a sent frame arrives with the checksum ENCODE gave it. -/
def Link.received (c : Byte) (p : List Byte) (d : Link) : Link := .recv (d.checksum c p)

/-- The instruction its receiver reads off the wire. The operations never travel, and stay as they are. -/
def Instr.received : Instr → Instr
  | .startRecord d p => .startRecord (d.received 0x01 p) p
  | .stopRecord d p => .stopRecord (d.received 0x02 p) p
  | .audioData d p => .audioData (d.received 0x03 p) p
  | .startPlay d p => .startPlay (d.received 0x04 p) p
  | .stopPlay d p => .stopPlay (d.received 0x05 p) p
  | .handshake d p => .handshake (d.received 0x06 p) p
  | .ack d p => .ack (d.received 0x07 p) p
  | .setFormat d p => .setFormat (d.received 0x08 p) p
  | .unnamedCommand c d p => .unnamedCommand c (d.received c p) p
  | .checksum s => .checksum s
  | .encode c p => .encode c p
  | .decode s => .decode s
  | .reset => .reset
  | .append chunk => .append chunk
  | .parse => .parse
  | .drain => .drain

/-! ### The table's numbering of an instruction's bits -/

/-- Byte `k` of a number whose bits 8k to 8k+7 are that byte (log entry 18). -/
def tableByte (w k : Nat) : Byte := BitVec.ofNat 8 (w / 256 ^ k)

/-- The bytes of an instruction given as a number: `nbits` bits of it from `w`, and zero bytes after them up to the
length its own length field states (log entry 18). -/
def tableWordBytes (nbits w : Nat) : List Byte :=
  let given := (List.range ((nbits + 7) / 8)).map (tableByte w)
  let total := le16 (byteAt given Config.lengthAt) (byteAt given (Config.lengthAt + 1)) + Config.minFrame
  given ++ List.replicate (total - given.length) 0

/-- The wire command the decoder reads from those bytes. -/
def decodeTableWord (nbits w : Nat) : Option Instr :=
  match decodeWire (tableWordBytes nbits w) with
  | .ok i => some i
  | .error _ => none

end Sys2Proof
end

