-- ==== Sys2Proof/Machine/State.lean ====
section
/-! DEFINITION. The state of the machine as plain data: the Parse Buffer, which is the block's whole state
(10_state R20), the host around it (43_host_environment R164), and the observations and inputs of a run
(10 R29). -/
namespace Sys2Proof.Machine

/-- A decoded frame, what PARSE yields: the pair (command, payload) (41 R118, 92 RD4). -/
structure Frame where
  command : Byte
  payload : List Byte
  deriving DecidableEq, Repr

/-- The five outcomes of PARSE (41 R112). -/
inductive ParseOutcome where
  | frame (f : Frame)
  | noHeader
  | needMin
  | needBody
  | corrupt
  deriving DecidableEq, Repr

/-- The reasons of an `Invalid` verdict, in the order they are tested (40 R93, 60 R186). -/
inductive InvalidReason where
  | tooShort
  | badHeader
  | lengthMismatch
  | badChecksum
  deriving DecidableEq, Repr

/-- The verdict of DECODE (40 R93). -/
inductive Verdict where
  | frame (f : Frame)
  | invalid (reason : InvalidReason)
  deriving DecidableEq, Repr

/-- What an operation returns (30 R75, column "result"). RESET, APPEND and SEND return nothing. -/
inductive Result where
  | checksum (b : Byte)
  | encoded (bytes : List Byte)
  | decoded (v : Verdict)
  | parsed (o : ParseOutcome)
  | drained (frames : List Frame)
  deriving DecidableEq, Repr

/-- The transport faults: "open/read/write failure" (60 R181 (a)). -/
inductive TransportFault where
  | openFailed
  | readFailed
  | writeFailed
  deriving DecidableEq, Repr

/-- What the host observes or reports (42 R150; 43 R163, R166, R169). -/
inductive Observation where
  /-- Audio-data arrived: the byte count so far (R150). -/
  | progress (bytesSoFar : Nat)
  /-- An ack arrived: the acknowledged command, if its payload has a first byte (R150, R147). -/
  | acknowledged (command : Option Byte)
  /-- "command not recognized" (R150). -/
  | notRecognized (command : Byte)
  /-- The accumulator handed to the external WAV writer with the fixed parameters (R163). -/
  | wavHandOver (samples : List Byte) (parameters : WavParams)
  /-- "no data received" (R163, R169). -/
  | noData
  /-- A Play's chunk-index progress after a chunk was sent (R163; the first index is 0, log entry 25). -/
  | chunkProgress (index : Nat)
  /-- A transport fault, surfaced to the caller of the operation it ends (R166; 60 R181 (a)). -/
  | transportFault (kind : TransportFault)
  deriving DecidableEq, Repr

/-- The Session Controller's states (43 R163). -/
inductive Session where
  | idle
  | handshaking
  | recording
  | playing
  deriving DecidableEq, Repr

/-- The three operations of the Session Controller (43 R163). Listen is a Record that waits for a stop signal. -/
inductive SessionKind where
  | handshake
  | record
  | play
  deriving DecidableEq, Repr

/-- What one transport read gives the Reader Task (43 R161, R162, R166). -/
inductive ReadResult where
  | data (chunk : List Byte)
  | timeout
  | error
  deriving DecidableEq, Repr

/-- What the transport answers to one write. A write that fails has taken some bytes of the frame, as many as the link
chose (log entry 27). -/
inductive WriteResult where
  | written
  | failed (taken : Nat)
  deriving DecidableEq, Repr

/-- One move of an agent (43 R160). The order of the moves is the script's (log entry 2). -/
inductive Event where
  /-- The host issues one operation or sends one wire command. -/
  | op (i : Instr)
  /-- One turn of the Reader Task's loop, with what its read returned (R162). -/
  | read (r : ReadResult)
  /-- The Session Controller sends a command, `SEND(c, P)`, with what the transport answers (R163, 30 R77; R166). -/
  | send (command : Byte) (payload : List Byte) (answer : WriteResult)
  /-- The transport of an operation cannot be opened: the operation ends before it starts (60 R181 (a)). -/
  | openFails
  /-- The Session Controller leaves Idle (R163). -/
  | startSession (k : SessionKind)
  /-- The Session Controller reports the index of the chunk it has sent (R163). -/
  | reportChunk (index : Nat)
  /-- The Session Controller clears the running flag (R164, R168). -/
  | stopSession
  /-- The Reader Task's termination is observed and the session ends (R167, R163). -/
  | joinSession
  deriving DecidableEq, Repr

/-- The state. `buf` is the block's only state (10 R20); the other fields are parameters, host state, observations and
inputs, and no rule of the block reads them but `params` (INVENTORY.md, heading State). -/
structure State where
  /-- Immutable parameters (00 R6, 10 R25); no step writes them (log entry 6). -/
  params : Params
  /-- The Parse Buffer (10 R20). -/
  buf : List Byte
  /-- Ghost history of results, oldest first (10 R29; log entry 8). -/
  results : List Result
  /-- The bytes handed to the transport so far (30 R77). -/
  wireOut : List Byte
  /-- The Audio Accumulator (43 R164). -/
  accum : List Byte
  /-- Ghost history of the host's observations, oldest first (42 R150; log entry 8). -/
  observations : List Observation
  /-- The Session Controller's state (43 R163). -/
  session : Session
  /-- The running flag (43 R164). -/
  running : Bool
  /-- Whether the Reader Task is alive (43 R164). -/
  taskAlive : Bool
  /-- Whether a fault the Session Controller met itself, a failing write, has ended the open operation, which is still to be
  shut down (43 R166, 60 R181 (a)). The Reader Task does not write it (43 R165). -/
  failed : Bool
  /-- How the Reader Task ended: on a read error (43 R166). It is the task's own, and the Session Controller sees it at the
  join, when it observes the task's termination (43 R165, R167; log entry 29). -/
  taskFailed : Bool
  /-- The events still to come, next first (43 R172; log entry 2). -/
  script : List Event
  deriving DecidableEq, Repr

/-- Why the machine stops. -/
inductive Fault where
  /-- APPEND over a finite `BUF_CAP` (41 R111, 60 R187): carries both lengths; raised by APPEND and by the reception of
  a wire command. It ends the run. Safe: with the spec's own unbounded capacity it cannot occur. -/
  | bufferOverflow (bufLen chunkLen : Nat)
  /-- A join while the Reader Task is alive and its flag still true: the task does not end, so the join never returns (43 R162,
  R167). Raised by the host event `joinSession`, never by an instruction. Safe (log entry 15). -/
  | joinBeforeStop
  deriving DecidableEq, Repr

/-- Why the machine gives no meaning. -/
inductive Refusal where
  /-- An instruction that has no meaning yet; no arm answers with it. Safe. -/
  | notModelled (mnemonic : String)
  /-- A payload the wire format cannot represent (40 R92, 60 R185, 93 U1): carries its length; raised by ENCODE and by
  the wire commands. Safe. -/
  | encodeOversize (n : Nat)
  /-- A session is started while one is open, where the document has no transition (43 R163). Raised by the host events
  `startSession` and `openFails`. Safe (log entry 12). -/
  | sessionBusy
  deriving DecidableEq, Repr

/-- The machine right after reset: `buf` empty (10 R30, 70 R210), the parameters as the hardware takes them (00 R6), the
host idle with nothing sent, accumulated, observed or scripted (log entry 7). -/
def State.reset : State :=
  { params := Config.block.params
    buf := []
    results := []
    wireOut := []
    accum := []
    observations := []
    session := .idle
    running := false
    taskAlive := false
    failed := false
    taskFailed := false
    script := [] }

end Sys2Proof.Machine
end

