-- ==== Sys2Proof/Machine/Ops.lean ====
section
/-! DEFINITION. The named operations: the Parse Buffer as memory (00_scope R9), the updates of State, the header
search, one parse attempt with its resynchronisation (41 R113 to R119), the drain loop (41 R120), the codec functions
(40 R92, R93), and the dispatcher (42 R150). -/
namespace Sys2Proof.Machine

/-! ### The Parse Buffer (10 R27, 20 R47): a queue addressed by offset from its head -/

/-- `BufDrop(n)`: drop at the head (R9). -/
def bufDrop (n : Nat) (b : List Byte) : List Byte := b.drop n

/-- `MemWrite(len(buf), len(v), v)`: append at the tail, the only write of bytes (R9). -/
def bufAppend (b v : List Byte) : List Byte := b ++ v

/-- The byte at an offset; an offset at or past the length holds none. -/
def readByte (b : List Byte) (off : Nat) : Option Byte := b[off]?

/-- The buffer written as address and byte cells, offsets counted from `off` (log entry 5). -/
def cellsFrom : Nat → List Byte → List Host.Cell
  | _, [] => []
  | off, x :: t => (off, x) :: cellsFrom (off + 1) t

/-- The buffer as cells, the head at offset 0 (10 R27). -/
def cells (b : List Byte) : List Host.Cell := cellsFrom 0 b

/-- The canonical form of a cell list: addresses strictly rising. An unlisted offset holds no byte, so no entry can
equal what an unlisted one reads as (log entry 5). -/
def Memory.wf : List Host.Cell → Bool
  | [] => true
  | [_] => true
  | c :: d :: t => decide (c.1 < d.1) && Memory.wf (d :: t)

/-! ### Updates of State, one per field a step writes -/

/-- `buf <- v`. -/
def State.setBuf (s : State) (v : List Byte) : State := { s with buf := v }
/-- Note the result an operation returns. -/
def State.pushResult (s : State) (r : Result) : State := { s with results := s.results ++ [r] }
/-- Hand bytes to the transport. -/
def State.pushWire (s : State) (v : List Byte) : State := { s with wireOut := s.wireOut ++ v }
/-- Replace the Audio Accumulator. -/
def State.setAccum (s : State) (v : List Byte) : State := { s with accum := v }
/-- Note an observation. -/
def State.observe (s : State) (o : Observation) : State := { s with observations := s.observations ++ [o] }
/-- Move the Session Controller. -/
def State.setSession (s : State) (x : Session) : State := { s with session := x }
/-- Write the running flag. -/
def State.setRunning (s : State) (x : Bool) : State := { s with running := x }
/-- Start or end the Reader Task. -/
def State.setTask (s : State) (x : Bool) : State := { s with taskAlive := x }
/-- Note that the open operation has failed, or clear that note. -/
def State.setFailed (s : State) (x : Bool) : State := { s with failed := x }
/-- Note that the Reader Task ended on an error, or clear that note. -/
def State.setTaskFailed (s : State) (x : Bool) : State := { s with taskFailed := x }
/-- Replace the events still to come. -/
def State.setScript (s : State) (x : List Event) : State := { s with script := x }

/-- Carry on from a next state; a fault or a refusal ends the operation (00 R9, `raise`). -/
def andThen (o : Host.Outcome State Fault Refusal) (f : State → Host.Outcome State Fault Refusal) :
    Host.Outcome State Fault Refusal :=
  match o with
  | .next s => f s
  | .fault r => .fault r
  | .refused r => .refused r

/-! ### Codec functions -/

/-- The frame of R92, or nothing when the length field cannot state the payload's length. -/
def encodeFrame (c : Byte) (p : List Byte) : Option (List Byte) :=
  if p.length > Config.maxPayload then none else some (frameBytes c p (frameChecksum c p))

/-- `DECODE(s)`, the four tests in the order of R93. -/
def decodeFrame (s : List Byte) : Verdict :=
  if s.length < Config.minFrame then .invalid .tooShort
  else if byteAt s 0 ≠ Config.header0 ∨ byteAt s 1 ≠ Config.header1 then .invalid .badHeader
  else
    let n := le16 (byteAt s Config.lengthAt) (byteAt s (Config.lengthAt + 1))
    let chkAt := Config.payloadAt + n
    if s.length ≠ n + Config.minFrame then .invalid .lengthMismatch
    else if xorFold (slice s Config.commandAt chkAt) ≠ byteAt s chkAt then .invalid .badChecksum
    else .frame { command := byteAt s Config.commandAt, payload := slice s Config.payloadAt chkAt }

/-- `Valid(s)`: the five conditions of 30 R66. -/
def isValidFrame (s : List Byte) : Bool :=
  decide (Config.minFrame ≤ s.length)
    && decide (byteAt s 0 = Config.header0) && decide (byteAt s 1 = Config.header1)
    && decide (s.length = Config.minFrame + le16 (byteAt s Config.lengthAt) (byteAt s (Config.lengthAt + 1)))
    && decide (byteAt s (s.length - 1) = xorFold (slice s Config.commandAt (s.length - 1)))

/-! ### One parse attempt -/

/-- `Find(s)`: the least `i` with `s[i] = 0xAA` and `s[i+1] = 0x55` (R9, R114). -/
def findHeader : List Byte → Option Nat
  | [] => none
  | x :: t =>
    if x = Config.header0 ∧ t.head? = some Config.header1 then some 0
    else (findHeader t).map (· + 1)

/-- Step 1 without a header: keep only the final byte (R114). -/
def keepLast (b : List Byte) : List Byte :=
  if b.length > 1 then bufDrop (b.length - 1) b else b

/-- The whole of the resynchronisation "trap" (60 R191): drop the skip at the head and report `Corrupt`. There is no
return from it: the next attempt starts at step 1 (60 R192). -/
def resync (skip : ResyncSkip) (t : List Byte) : ParseOutcome × List Byte :=
  (.corrupt, bufDrop skip.bytes t)

/-- Steps 3 to 5 on the buffer `t` that begins with a header (R116 to R119). -/
def parseAt (skip : ResyncSkip) (t : List Byte) : ParseOutcome × List Byte :=
  if t.length < Config.minFrame then (.needMin, t)
  else
    let command := byteAt t Config.commandAt
    let length := le16 (byteAt t Config.lengthAt) (byteAt t (Config.lengthAt + 1))
    let chkAt := Config.payloadAt + length
    let total := chkAt + Config.block.chkLen
    if t.length < total then (.needBody, t)
    else
      let payload := slice t Config.payloadAt chkAt
      let chk := byteAt t chkAt
      let expected := xorFold (slice t Config.commandAt chkAt)
      if expected = chk then (.frame { command := command, payload := payload }, bufDrop total t)
      else resync skip t

/-- `PARSE` on a buffer: the outcome and the buffer after (R113). -/
def parseBuf (skip : ResyncSkip) (b : List Byte) : ParseOutcome × List Byte :=
  match findHeader b with
  | none => (.noHeader, keepLast b)
  | some i => parseAt skip (bufDrop i b)

/-! ### The drain loop -/

/-- At most `fuel` attempts of the loop of R120: the frames yielded, oldest first, and the buffer after. -/
def drainFrom (p : Params) : Nat → List Byte → List Frame × List Byte
  | 0, b => ([], b)
  | fuel + 1, b =>
    match parseBuf p.resyncSkip b with
    | (.frame f, b') => (f :: (drainFrom p fuel b').1, (drainFrom p fuel b').2)
    | (.corrupt, b') =>
      match p.drainPolicy with
      | .quiescent => drainFrom p fuel b'
      | .firstNoFrame => ([], b')
    | (.noHeader, b') => ([], b')
    | (.needMin, b') => ([], b')
    | (.needBody, b') => ([], b')

/-- `DRAIN` on a buffer. Every attempt that does not end the loop shortens the buffer (R121), so one attempt more than
there are bytes is enough (log entry 21). -/
def drainBuf (p : Params) (b : List Byte) : List Frame × List Byte := drainFrom p (b.length + 1) b

/-! ### The consumer of frames -/

/-- The Frame Dispatcher (42 R150): three arms, none of which touches `buf` or refuses. -/
def dispatch (s : State) (f : Frame) : State :=
  if f.command = 0x03 then
    (s.setAccum (s.accum ++ f.payload)).observe (.progress (s.accum ++ f.payload).length)
  else if f.command = 0x07 then s.observe (.acknowledged f.payload.head?)
  else s.observe (.notRecognized f.command)

/-- Each frame goes to the dispatcher as it is yielded, in order (41 R120, 43 R162). -/
def dispatchAll (s : State) (fs : List Frame) : State := fs.foldl dispatch s

/-! ### The operations on a state -/

/-- APPEND (41 R111): the capacity test comes first, and a refused chunk leaves `buf` as it was. -/
def appendChunk (chunk : List Byte) (s : State) : Host.Outcome State Fault Refusal :=
  match s.params.bufCap with
  | none => .next (s.setBuf (bufAppend s.buf chunk))
  | some cap =>
    if s.buf.length + chunk.length > cap then .fault (.bufferOverflow s.buf.length chunk.length)
    else .next (s.setBuf (bufAppend s.buf chunk))

/-- The frame an outcome carries, if it is one: the document's two-valued report (R112). -/
def ParseOutcome.yielded : ParseOutcome → List Frame
  | .frame f => [f]
  | .noHeader => []
  | .needMin => []
  | .needBody => []
  | .corrupt => []

/-- PARSE on the state: the buffer, the result, and the yielded frame dispatched (41 R113, log entry 9). -/
def parseOnce (s : State) : State :=
  let r := parseBuf s.params.resyncSkip s.buf
  dispatchAll ((s.setBuf r.2).pushResult (.parsed r.1)) r.1.yielded

/-- DRAIN on the state: the buffer, the result, and each yielded frame dispatched (41 R120, log entry 9). -/
def drainAll (s : State) : State :=
  let r := drainBuf s.params s.buf
  dispatchAll ((s.setBuf r.2).pushResult (.drained r.1)) r.1

/-- `FEED(chunk)`: APPEND, then DRAIN (30 R77; what the Reader Task does "on data", 43 R162). -/
def feed (chunk : List Byte) (s : State) : Host.Outcome State Fault Refusal :=
  andThen (appendChunk chunk s) (fun t => .next (drainAll t))

/-- `SEND(c, P)`: ENCODE, then the transport write; `buf` is not touched (30 R77). -/
def sendCommand (c : Byte) (p : List Byte) (s : State) : Host.Outcome State Fault Refusal :=
  match encodeFrame c p with
  | none => .refused (.encodeOversize p.length)
  | some bytes => .next (s.pushWire bytes)

/-- A wire command's frame arrives whole, with the checksum byte it carries, and is fed (42 R140, 43 R162). A payload
no frame can hold never arrives (30 R71, log entry 14). -/
def recvCommand (c chk : Byte) (p : List Byte) (s : State) : Host.Outcome State Fault Refusal :=
  if p.length > Config.maxPayload then .refused (.encodeOversize p.length)
  else feed (frameBytes c p chk) s

/-- A wire command at either end of the link (42 R140). -/
def wireCommand (c : Byte) (d : Link) (p : List Byte) (s : State) : Host.Outcome State Fault Refusal :=
  match d with
  | .send => sendCommand c p s
  | .recv chk => recvCommand c chk p s

/-- All frames yielded so far, oldest first, read off the history of results (10 R29). -/
def Result.frames : Result → List Frame
  | .parsed o => o.yielded
  | .drained fs => fs
  | .checksum _ => []
  | .encoded _ => []
  | .decoded _ => []

/-- The frames yielded in a run, oldest first (10 R29, 43 R172). -/
def State.yielded (s : State) : List Frame := s.results.flatMap Result.frames

end Sys2Proof.Machine
end

