-- ==== Sys2Proof/Machine/Codec.lean ====
section
/-! DEFINITION. The Frame Codec's operations CHECKSUM, ENCODE and DECODE (40_codec). They read only their operands and
write nothing but the note of their result (R91). -/
namespace Sys2Proof.Machine

/-- CHECKSUM(s): total, one byte (R90). -/
def execChecksum (operand : List Byte) (s : State) : Host.Outcome State Fault Refusal :=
  .next (s.pushResult (.checksum (xorFold operand)))

/-- ENCODE(c, P): the frame's bytes, or the refusal EncodeOversize (R92, 60 R185). -/
def execEncode (c : Byte) (p : List Byte) (s : State) : Host.Outcome State Fault Refusal :=
  match encodeFrame c p with
  | none => .refused (.encodeOversize p.length)
  | some bytes => .next (s.pushResult (.encoded bytes))

/-- DECODE(s): total, a frame or the first reason that applies (R93). -/
def execDecode (operand : List Byte) (s : State) : Host.Outcome State Fault Refusal :=
  .next (s.pushResult (.decoded (decodeFrame operand)))

end Sys2Proof.Machine
end

