-- ==== Sys2Proof/Machine/Parser.lean ====
section
/-! DEFINITION. The Stream Parser's operations RESET, APPEND, PARSE and DRAIN (41_stream_parser). -/
namespace Sys2Proof.Machine

/-- RESET: `buf <- []` (R110). -/
def execReset (s : State) : Host.Outcome State Fault Refusal := .next (s.setBuf [])

/-- APPEND(chunk) (R111). -/
def execAppend (chunk : List Byte) (s : State) : Host.Outcome State Fault Refusal := appendChunk chunk s

/-- PARSE, one attempt; total (R113). -/
def execParse (s : State) : Host.Outcome State Fault Refusal := .next (parseOnce s)

/-- DRAIN; total (R120, R121). -/
def execDrain (s : State) : Host.Outcome State Fault Refusal := .next (drainAll s)

end Sys2Proof.Machine
end

