-- ==== Sys2Proof/Machine/Wire.lean ====
section
/-! DEFINITION. The wire commands (42_wire_commands R140 to R149), each at either end of the link: sent, the frame's bytes
go to the transport; received, they are fed to the parser and what it yields is dispatched. -/
namespace Sys2Proof.Machine

/-- START_RECORD, 0x01 (R141). -/
def execStartRecord (d : Link) (p : List Byte) (s : State) : Host.Outcome State Fault Refusal :=
  wireCommand 0x01 d p s

/-- STOP_RECORD, 0x02 (R142). -/
def execStopRecord (d : Link) (p : List Byte) (s : State) : Host.Outcome State Fault Refusal :=
  wireCommand 0x02 d p s

/-- AUDIO_DATA, 0x03 (R143). -/
def execAudioData (d : Link) (p : List Byte) (s : State) : Host.Outcome State Fault Refusal :=
  wireCommand 0x03 d p s

/-- START_PLAY, 0x04 (R144). -/
def execStartPlay (d : Link) (p : List Byte) (s : State) : Host.Outcome State Fault Refusal :=
  wireCommand 0x04 d p s

/-- STOP_PLAY, 0x05 (R145). -/
def execStopPlay (d : Link) (p : List Byte) (s : State) : Host.Outcome State Fault Refusal :=
  wireCommand 0x05 d p s

/-- HANDSHAKE, 0x06 (R146). -/
def execHandshake (d : Link) (p : List Byte) (s : State) : Host.Outcome State Fault Refusal :=
  wireCommand 0x06 d p s

/-- ACK, 0x07 (R147). -/
def execAck (d : Link) (p : List Byte) (s : State) : Host.Outcome State Fault Refusal :=
  wireCommand 0x07 d p s

/-- SET_FORMAT, 0x08 (R148). -/
def execSetFormat (d : Link) (p : List Byte) (s : State) : Host.Outcome State Fault Refusal :=
  wireCommand 0x08 d p s

/-- UNNAMED_COMMAND, any other code: encoded and yielded like any other (R149, 30 R70). -/
def execUnnamedCommand (c : Byte) (d : Link) (p : List Byte) (s : State) : Host.Outcome State Fault Refusal :=
  wireCommand c d p s

end Sys2Proof.Machine
end

