-- ==== Sys2Proof/Machine/Dispatch.lean ====
section
/-! DEFINITION. One arm per constructor of Instr, each one direct call of its meaning. -/
namespace Sys2Proof.Machine

def exec (i : Instr) (s : State) : Host.Outcome State Fault Refusal :=
  match i with
  | .startRecord d p => Sys2Proof.Machine.execStartRecord d p s
  | .stopRecord d p => Sys2Proof.Machine.execStopRecord d p s
  | .audioData d p => Sys2Proof.Machine.execAudioData d p s
  | .startPlay d p => Sys2Proof.Machine.execStartPlay d p s
  | .stopPlay d p => Sys2Proof.Machine.execStopPlay d p s
  | .handshake d p => Sys2Proof.Machine.execHandshake d p s
  | .ack d p => Sys2Proof.Machine.execAck d p s
  | .setFormat d p => Sys2Proof.Machine.execSetFormat d p s
  | .unnamedCommand c d p => Sys2Proof.Machine.execUnnamedCommand c d p s
  | .checksum operand => Sys2Proof.Machine.execChecksum operand s
  | .encode c p => Sys2Proof.Machine.execEncode c p s
  | .decode operand => Sys2Proof.Machine.execDecode operand s
  | .reset => Sys2Proof.Machine.execReset s
  | .append chunk => Sys2Proof.Machine.execAppend chunk s
  | .parse => Sys2Proof.Machine.execParse s
  | .drain => Sys2Proof.Machine.execDrain s

end Sys2Proof.Machine
end

