-- ==== Sys2Proof/Machine/HostEnv.lean ====
section
/-! DEFINITION. The host around the block (43_host_environment): one turn of the Reader Task (R162, R166), the Session
Controller's moves (R163, R164, R167, R168), and the sequences it sends (R163, 42 R151). Nothing here changes what an
operation of the block does. -/
namespace Sys2Proof.Machine

/-- Data from the transport. A chunk that is one whole frame is the wire command it spells; any other chunk is fed as it
is (R162). Both are FEED of the same bytes. -/
def takeChunk (chunk : List Byte) (s : State) : Host.Outcome State Fault Refusal :=
  match decodeWire chunk with
  | .ok i => exec i s
  | .error _ => feed chunk s

/-- A transport fault the Session Controller meets: surfaced to the caller, and fatal to the operation that is open, if one
is (R166, 60 R181 (a)). -/
def transportFault (k : TransportFault) (s : State) : State :=
  (s.observe (.transportFault k)).setFailed (decide (s.session ≠ .idle))

/-- A read error while the running flag is set: surfaced, and the Reader Task ends (R166). It leaves word of how it ended,
which the Session Controller first reads at the join, since before it they share the flag alone (R165). That it learns of the
error there is a DESIGN CHOICE: the spec does not say how it does (log entry 29). -/
def readFault (s : State) : State :=
  ((s.observe (.transportFault .readFailed)).setTask false).setTaskFailed true

/-- One turn of the Reader Task's loop: poll the running flag, then deal with what the read returned (R162, R166). With
no task alive nothing is read. A turn that finds the flag false ends the task silently (log entry 11). -/
def readerTurn (r : ReadResult) (s : State) : Host.Outcome State Fault Refusal :=
  if s.taskAlive = false then .next s
  else if s.running = false then .next (s.setTask false)
  else
    match r with
    | .data chunk => takeChunk chunk s
    | .timeout => .next s
    | .error => .next (readFault s)

/-- The Reader Task is started with an empty accumulator (R163, R164); whether `buf` is cleared too is the open parameter
of 70 R214 (log entries 10 and 13). -/
def startReader (s : State) : State :=
  let t := if Config.resetPerOperation then s.setBuf [] else s
  (t.setAccum []).setTask true

/-- The state a session opens in. A Handshake starts no Reader Task (R163), so a read made while handshaking finds no
task and is discarded: DESIGN CHOICE, since how the reply is received is not said (log entry 26). -/
def openSession (k : SessionKind) (s : State) : State :=
  match k with
  | .handshake => s.setSession .handshaking
  | .record => (startReader s).setSession .recording
  | .play => (startReader s).setSession .playing

/-- The Session Controller leaves Idle (R163) for an operation, a Handshake among them (00 R11): the running flag goes false
to true (R164), and nothing has failed yet. -/
def beginSession (k : SessionKind) (s : State) : Host.Outcome State Fault Refusal :=
  match s.session with
  | .idle => .next ((((openSession k s).setRunning true).setFailed false).setTaskFailed false)
  | .handshaking => .refused .sessionBusy
  | .recording => .refused .sessionBusy
  | .playing => .refused .sessionBusy

/-- The transport of a new operation cannot be opened: the fault is surfaced (60 R181 (a)). That the controller has not yet
left Idle then, and has started no Reader Task, is a DESIGN CHOICE: when an operation opens its transport is not said (log
entry 28). -/
def openFails (s : State) : Host.Outcome State Fault Refusal :=
  match s.session with
  | .idle => .next (transportFault .openFailed s)
  | .handshaking => .refused .sessionBusy
  | .recording => .refused .sessionBusy
  | .playing => .refused .sessionBusy

/-- The stop command of an open operation: stop-record or stop-play (42 R142, R145). -/
def stopCommand : Session → Option Byte
  | .idle => none
  | .handshaking => none
  | .recording => some 0x02
  | .playing => some 0x05

/-- A send of the Session Controller (R163). A fault it has met itself is fatal to the operation (R166): it sends nothing more but
its stop command, which is sent on every exit path (70 R225; log entry 27). A write that fails has taken the first `n`
bytes of the frame, and is a transport fault; it is not tried again. -/
def sessionSend (c : Byte) (p : List Byte) (w : WriteResult) (s : State) : Host.Outcome State Fault Refusal :=
  if s.failed = true ∧ stopCommand s.session ≠ some c then .next s
  else
    match w with
    | .written => exec (instrOfCommand c .send p) s
    | .failed n =>
      match encodeFrame c p with
      | none => .refused (.encodeOversize p.length)
      | some bytes => .next (transportFault .writeFailed (s.pushWire (bytes.take n)))

/-- An operation whose write has failed reports no further chunk (R166). -/
def reportChunk (k : Nat) (s : State) : Host.Outcome State Fault Refusal :=
  if s.failed then .next s else .next (s.observe (.chunkProgress k))

/-- The controller writes the running flag false: the transition of R164 where it was true, and nothing where it was not
(log entry 12). -/
def clearRunning (s : State) : Host.Outcome State Fault Refusal := .next (s.setRunning false)

/-- The end of a Record: the accumulator to the WAV writer, or "no data received" (R163, R169). A Record that a
transport fault has ended, the controller's or the task's, does neither: DESIGN CHOICE, the fault being fatal to it (R166,
log entry 27). A cancelled Record does as any other: DESIGN CHOICE, since R168 names only the stop, the flag and the join of a
cancellation (log entry 31). -/
def reportRecording (s : State) : State :=
  if s.failed = true ∨ s.taskFailed = true then s
  else if s.accum = [] then s.observe .noData else s.observe (.wavHandOver s.accum Config.wavParams)

/-- The controller is Idle again: the operation's flag is down and whatever failed is over (R163, R164). -/
def closeSession (s : State) : State := (((s.setSession .idle).setRunning false).setFailed false).setTaskFailed false

/-- The Reader Task is still looping: the flag it polls is set and it is alive (R162). -/
def readerLoops (s : State) : Bool := s.running && s.taskAlive

/-- The Reader Task's termination is observed, the accumulator is consumed and discarded, and the controller is Idle
again (R163, R164, R167). With no operation open there is no task to observe, and nothing changes (log entry 12). That a join
made before the stop command of a Record or Play was sent completes all the same, with no stop on the wire, is a DESIGN
CHOICE: 70 R225 has the stop sent on every exit path, so the document never makes this move (log entry 30). -/
def endSession (s : State) : Host.Outcome State Fault Refusal :=
  match s.session with
  | .idle => .next s
  | .handshaking => .next (closeSession s)
  | .recording =>
    if readerLoops s then .fault .joinBeforeStop
    else .next (closeSession (((reportRecording s).setTask false).setAccum []))
  | .playing =>
    if readerLoops s then .fault .joinBeforeStop
    else .next (closeSession ((s.setTask false).setAccum []))

/-- One move of an agent (R160). -/
def runEvent (e : Event) (s : State) : Host.Outcome State Fault Refusal :=
  match e with
  | .op i => exec i s
  | .read r => readerTurn r s
  | .startSession k => beginSession k s
  | .send c p w => sessionSend c p w s
  | .openFails => openFails s
  | .reportChunk k => reportChunk k s
  | .stopSession => clearRunning s
  | .joinSession => endSession s

/-- Take the next move off the script; with none left the run has ended and nothing changes (R172, log entry 19). -/
def runNext (s : State) : Host.Outcome State Fault Refusal :=
  match s.script with
  | [] => .next s
  | e :: rest => runEvent e (s.setScript rest)

/-- A list of operations issued one after the other, stopping at the first fault or refusal (30 R76). -/
def runOps : List Instr → State → Host.Outcome State Fault Refusal
  | [], s => .next s
  | i :: is, s => andThen (exec i s) (runOps is)

/-- A list of moves made one after the other, stopping at the first fault or refusal (43 R160, R172). -/
def runEvents : List Event → State → Host.Outcome State Fault Refusal
  | [], s => .next s
  | e :: es, s => andThen (runEvent e s) (runEvents es)

/-! ### What the Session Controller sends -/

/-- The source bytes cut into pieces of `k`, the last one shorter when the length is no multiple of `k`; no piece for no
bytes (42 R151). `fuel` bounds the number of pieces. -/
def chunksUpTo (k : Nat) : Nat → List Byte → List (List Byte)
  | 0, _ => []
  | fuel + 1, src => if src = [] then [] else src.take k :: chunksUpTo k fuel (src.drop k)

/-- The pieces of a source (42 R151): there are never more pieces than bytes when `k` is positive. -/
def chunksOf (k : Nat) (src : List Byte) : List (List Byte) := chunksUpTo k src.length src

/-- A send of the Session Controller whose write succeeds. -/
def sendOk (c : Byte) (p : List Byte) : Event := .send c p .written

/-- Handshake: one command, no Reader Task (43 R163). That it ends right after the send, with no read of a reply, is the
model's DESIGN CHOICE: R146, R163 and 91 N18 say neither that the host reads one nor that it does not (log entry 26). -/
def handshakeScript : List Event :=
  [.startSession .handshake, sendOk 0x06 [], .stopSession, .joinSession]

/-- The opening of a Record (43 R163). -/
def recordStartScript : List Event :=
  [.startSession .record, sendOk 0x01 []]

/-- The closing of a Record, the same on cancellation (43 R163, R168). That a cancelled Record still hands over or reports at
its join is a DESIGN CHOICE (log entry 31). -/
def recordStopScript : List Event :=
  [sendOk 0x02 [], .stopSession, .joinSession]

/-- The closing of a Play, the same on cancellation (43 R163, R168). -/
def playStopScript : List Event :=
  [sendOk 0x05 [], .stopSession, .joinSession]

/-- The audio-data sends of a Play, each with the report of its index, counted from `k` (43 R163). The pacing delays are
not modelled (log entry 17). -/
def audioSends : Nat → List (List Byte) → List Event
  | _, [] => []
  | k, c :: cs => sendOk 0x03 c :: .reportChunk k :: audioSends (k + 1) cs

/-- A Play operation that sends the given pieces and stops (43 R163). -/
def playPieces (fmt : AudioFormat) (pieces : List (List Byte)) : List Event :=
  [.startSession .play, sendOk 0x08 [fmt.tag], sendOk 0x04 []]
    ++ audioSends 0 pieces ++ playStopScript

/-- A whole Play operation: every piece of the source (43 R163, 42 R151). -/
def playScript (fmt : AudioFormat) (src : List Byte) : List Event :=
  playPieces fmt (chunksOf fmt.chunkBytes src)

/-- A Play cancelled after `n` chunk sends: the same shutdown follows (43 R168). -/
def playCancelled (fmt : AudioFormat) (src : List Byte) (n : Nat) : List Event :=
  playPieces fmt ((chunksOf fmt.chunkBytes src).take n)

end Sys2Proof.Machine
end

