-- ==== Sys2Proof/Machine/Step.lean ====
section
/-! DEFINITION. One step: the next move of the script. -/
namespace Sys2Proof.Machine

/-- One step of the machine (log entries 2 and 19). -/
def step (s : State) : Host.Outcome State Fault Refusal := runNext s

/-- `s` with the bytes of an instruction arriving as the next thing the Reader Task reads, the task alive and the flag
set so that the very next step takes them (log entry 18). -/
def State.withFetchWord (s : State) (nbits w : Nat) : State :=
  { s with
    running := true
    taskAlive := true
    script := .read (.data (tableWordBytes nbits w)) :: s.script }

end Sys2Proof.Machine
end

