-- ==== Sys2Proof/Machine/Flags.lean ====
section
/-! DEFINITION. The block has no flags (10_state R24). What a reader can compute from `buf` instead: its phase
(10 R31) and whether it is quiescent (41 R125). Nothing here is stored. -/
namespace Sys2Proof.Machine

/-- `HUNT`: no header seen, at most one byte kept (R31). -/
def inHunt (b : List Byte) : Bool := decide (b.length ≤ 1)

/-- The buffer begins with the header. -/
def startsWithHeader (b : List Byte) : Bool :=
  decide (b.head? = some Config.header0) && decide (b.tail.head? = some Config.header1)

/-- `HDR`: a header seen, the minimum of six bytes not reached (R31). -/
def inHdr (b : List Byte) : Bool :=
  startsWithHeader b && decide (2 ≤ b.length) && decide (b.length ≤ 5)

/-- `BODY`: length known, payload or checksum still missing (R31). -/
def inBody (b : List Byte) : Bool :=
  startsWithHeader b && decide (6 ≤ b.length) && decide (b.length < 6 + le16 (byteAt b 3) (byteAt b 4))

/-- The outcome is a wait (60 R184). -/
def ParseOutcome.isWait : ParseOutcome → Bool
  | .frame _ => false
  | .noHeader => true
  | .needMin => true
  | .needBody => true
  | .corrupt => false

/-- Quiescent: PARSE reports a wait and changes nothing (41 R125, 00 R12). -/
def isQuiescent (skip : ResyncSkip) (b : List Byte) : Bool :=
  (parseBuf skip b).1.isWait && decide ((parseBuf skip b).2 = b)

end Sys2Proof.Machine
end

