-- ==== Sys2Proof/Safety.lean ====
section
/-! DEFINITION. What counts as a good state: the invariants that claims use. -/
namespace Sys2Proof.Machine

/-- `buf` is within a finite `BUF_CAP` (41 R111). -/
def withinCap (s : State) : Prop :=
  ∀ cap, s.params.bufCap = some cap → s.buf.length ≤ cap

/-- A set running flag belongs to an open operation (43 R164), a Reader Task, alive or ended on an error, to an open
Record or Play (43 R163), and only an open operation has failed (43 R166). -/
def sessionSound (s : State) : Prop :=
  (s.running = true → s.session ≠ .idle)
    ∧ (s.taskAlive = true → s.session = .recording ∨ s.session = .playing)
    ∧ (s.failed = true → s.session ≠ .idle)
    ∧ (s.taskFailed = true → s.session = .recording ∨ s.session = .playing)

/-- The machine's invariant: the parameters are ones R6 admits, `buf` is within its capacity, and the session is sound. -/
def Inv (s : State) : Prop := s.params.wf = true ∧ withinCap s ∧ sessionSound s

/-! ### Words of the spec that statements use -/

/-- The header pair stands at offset `i` (41 R114). -/
abbrev headerAt (b : List Byte) (i : Nat) : Prop := b[i]? = some 0xAA ∧ b[i + 1]? = some 0x55

/-- The lowest offset at which the header pair stands (41 R114, 00 R9 `Find`). -/
def firstHeader (b : List Byte) (i : Nat) : Prop := headerAt b i ∧ ∀ j, j < i → ¬ headerAt b j

/-- The chunk fits a finite `BUF_CAP`; always so when it is unbounded (41 R111). -/
def fits (s : State) (n : Nat) : Prop := ∀ cap, s.params.bufCap = some cap → s.buf.length + n ≤ cap

/-- `FRAME(c, P)` of 30 R76 for a frame record: the bytes ENCODE gives it. -/
def Frame.bytes (f : Frame) : List Byte := frameBytes f.command f.payload (frameChecksum f.command f.payload)

/-- The bytes an instruction puts at the tail of `buf`: an appended chunk, or a received frame (41 R111, 43 R162). -/
def arrivingBytes (i : Instr) : List Byte :=
  match i with
  | .append chunk => chunk
  | _ => if i.received = i then (encode i).getD [] else []

/-- The frame a valid byte sequence spells: command at offset 2, payload at 5 up to the last byte (30 R74). -/
def frameOf (s : List Byte) : Frame := { command := byteAt s 2, payload := slice s 5 (s.length - 1) }

end Sys2Proof.Machine
end

