-- ==== Sys2Proof/Certificates/Slice0/Obligations.lean ====
section
/-! DEFINITION. The statements for the provers, each from a numbered rule of spec/ or derived from its sections. -/

namespace Sys2Proof.Statements

open Sys2Proof Sys2Proof.Machine

/-- The wire command `mk` of code `c`, sent: every payload the format can state goes to the transport as the frame of
30 R60, and nothing else changes; a longer one is refused (30 R77, 40 R92). -/
def SendsFrame (c : Byte) (mk : Link → List Byte → Instr) : Prop :=
  ∀ (p : List Byte) (s : State),
    (p.length ≤ 65535 →
      exec (mk .send p) s =
        .next { s with
          wireOut := s.wireOut ++ ([0xAA, 0x55, c, lo8 p.length, hi8 p.length] ++ p
            ++ [xorFold ([c, lo8 p.length, hi8 p.length] ++ p)]) })
    ∧ (65535 < p.length → exec (mk .send p) s = .refused (.encodeOversize p.length))

/-- The wire command `mk` of code `c`, received: its frame, with whatever checksum byte it came with, is appended and the
buffer drained (43 R162). With room for the frame that is a next state; over a finite capacity it faults as APPEND does,
and a payload no frame can hold is refused. -/
def FeedsFrame (c : Byte) (mk : Link → List Byte → Instr) : Prop :=
  ∀ (chk : Byte) (p : List Byte) (s : State),
    (p.length ≤ 65535 → fits s (p.length + 6) →
      ∃ t u,
        exec (.append ([0xAA, 0x55, c, lo8 p.length, hi8 p.length] ++ p ++ [chk])) s = .next t
        ∧ exec .drain t = .next u
        ∧ exec (mk (.recv chk) p) s = .next u)
    ∧ (p.length ≤ 65535 → ∀ cap, s.params.bufCap = some cap → cap < s.buf.length + (p.length + 6) →
        exec (mk (.recv chk) p) s = .fault (.bufferOverflow s.buf.length (p.length + 6)))
    ∧ (65535 < p.length → exec (mk (.recv chk) p) s = .refused (.encodeOversize p.length))

/-- The wire command `mk` of code `c`, received intact by a parser with an empty buffer: the frame is yielded, the buffer
is empty again, and `eff` is what the dispatcher did (42 R140, R150). -/
def DeliversFrame (c : Byte) (mk : Link → List Byte → Instr) (eff : List Byte → State → State) : Prop :=
  ∀ (p : List Byte) (s : State), p.length ≤ 65535 → s.buf = [] → fits s (p.length + 6) →
    exec (mk (.recv (xorFold ([c, lo8 p.length, hi8 p.length] ++ p))) p) s =
      .next (eff p { s with results := s.results ++ [.drained [{ command := c, payload := p }]] })

/-- The dispatcher's third arm (42 R150). -/
def notRecognizedEffect (c : Byte) (_ : List Byte) (s : State) : State :=
  { s with observations := s.observations ++ [.notRecognized c] }

/-- The dispatcher's audio-data arm (42 R150). -/
def audioEffect (p : List Byte) (s : State) : State :=
  { s with
    accum := s.accum ++ p
    observations := s.observations ++ [.progress (s.accum.length + p.length)] }

/-- The dispatcher's ack arm (42 R150). -/
def ackEffect (p : List Byte) (s : State) : State :=
  { s with observations := s.observations ++ [.acknowledged p.head?] }

end Sys2Proof.Statements

open Sys2Proof Sys2Proof.Machine Sys2Proof.Statements

/-! ### Encoding -/

/-- 30 R60, R63, R69: what the encoder writes for a well-formed wire command the decoder reads back, every operand at
every value; a sent command is read as its receiver sees it. -/
def Obligations.DecodeOfEncodeIsReceivedInstr : Prop :=
  ∀ (i : Instr) (bytes : List Byte), i.wellFormed = true → encode i = some bytes → decodeWire bytes = .ok i.received

/-- 30 R74: what the decoder accepts is well-formed and encodes to the same bytes, so no two byte sequences spell one
instruction. -/
def Obligations.EncodeOfDecodeIsSameBytes : Prop :=
  ∀ (i : Instr) (bytes : List Byte), decodeWire bytes = .ok i → i.wellFormed = true ∧ encode i = some bytes

/-- 30 R78, 92 D3: the seven operations have no bit pattern: no bytes decode to one. -/
def Obligations.OperationsHaveNoEncoding : Prop :=
  ∀ (i : Instr) (bytes : List Byte), decodeWire bytes = .ok i → encode i ≠ none ∧
    (∀ x, i ≠ .checksum x) ∧ (∀ c x, i ≠ .encode c x) ∧ (∀ x, i ≠ .decode x) ∧ i ≠ .reset ∧ (∀ x, i ≠ .append x)
    ∧ i ≠ .parse ∧ i ≠ .drain

/-- Words written out from 30 R60 and 42 R141 to R149 decode to the commands they stand for. -/
def Obligations.KnownFramesDecode : Prop :=
  decodeWire [0xAA, 0x55, 0x06, 0x00, 0x00, 0x06] = .ok (.handshake (.recv 0x06) [])
  ∧ decodeWire [0xAA, 0x55, 0x03, 0x02, 0x00, 0x10, 0x20, 0x31] = .ok (.audioData (.recv 0x31) [0x10, 0x20])
  ∧ decodeWire [0xAA, 0x55, 0x07, 0x01, 0x00, 0x06, 0x00] = .ok (.ack (.recv 0x00) [0x06])
  ∧ decodeWire [0xAA, 0x55, 0x09, 0x00, 0x00, 0x09] = .ok (.unnamedCommand 0x09 (.recv 0x09) [])
  ∧ decodeWire [0x55, 0xAA, 0x06, 0x00, 0x00, 0x06] = .error .badHeader

/-! ### The Frame Codec -/

/-- 40 R90: CHECKSUM completes with the XOR fold from zero; nothing gives 0, one byte gives itself, and no order of the
bytes matters. -/
def Obligations.ChecksumIsXorFold : Prop :=
  (∀ (x : List Byte) (s : State), ∃ r : Byte,
      exec (.checksum x) s = .next { s with results := s.results ++ [.checksum r] }
      ∧ r = x.foldl (fun acc b => acc ^^^ b) 0
      ∧ (x = [] → r = 0) ∧ (∀ b, x = [b] → r = b)
      ∧ (∀ y : List Byte, y.Perm x → exec (.checksum y) s = exec (.checksum x) s))

/-- 40 R92: ENCODE completes with the frame of the format for every payload the length field can state, any command; a
longer payload is refused and produces nothing. -/
def Obligations.EncodeBuildsFrameOrRefuses : Prop :=
  ∀ (c : Byte) (p : List Byte) (s : State),
    (p.length ≤ 65535 → ∃ f : List Byte,
      exec (.encode c p) s = .next { s with results := s.results ++ [.encoded f] }
      ∧ f = [0xAA, 0x55] ++ ([c, lo8 p.length, hi8 p.length] ++ p) ++ [xorFold ([c, lo8 p.length, hi8 p.length] ++ p)]
      ∧ f.length = p.length + 6
      ∧ isValidFrame f = true
      ∧ (p = [] → f = [0xAA, 0x55, c, 0x00, 0x00, c]))
    ∧ (65535 < p.length → exec (.encode c p) s = .refused (.encodeOversize p.length))

/-- 40 R93: DECODE completes with the verdict of the four tests in order, and it is a frame exactly when `Valid`. -/
def Obligations.DecodeGivesVerdictInOrder : Prop :=
  ∀ (x : List Byte) (s : State), ∃ v : Verdict,
    exec (.decode x) s = .next { s with results := s.results ++ [.decoded v] }
    ∧ (x.length < 6 → v = .invalid .tooShort)
    ∧ (6 ≤ x.length → ¬ headerAt x 0 → v = .invalid .badHeader)
    ∧ (6 ≤ x.length → headerAt x 0 → x.length ≠ le16 (byteAt x 3) (byteAt x 4) + 6 → v = .invalid .lengthMismatch)
    ∧ (6 ≤ x.length → headerAt x 0 → x.length = le16 (byteAt x 3) (byteAt x 4) + 6 →
        xorFold (slice x 2 (x.length - 1)) ≠ byteAt x (x.length - 1) → v = .invalid .badChecksum)
    ∧ (6 ≤ x.length → headerAt x 0 → x.length = le16 (byteAt x 3) (byteAt x 4) + 6 →
        xorFold (slice x 2 (x.length - 1)) = byteAt x (x.length - 1) → v = .frame (frameOf x))
    ∧ ((∃ f, v = .frame f) ↔ isValidFrame x = true)

/-- 40 R94: DECODE undoes ENCODE for every command and payload, ENCODE undoes DECODE on every frame it accepts, and
ENCODE is injective. -/
def Obligations.EncodeDecodeRoundTrip : Prop :=
  (∀ (c : Byte) (p : List Byte), p.length ≤ 65535 →
      ∃ f, encodeFrame c p = some f ∧ decodeFrame f = .frame { command := c, payload := p })
  ∧ (∀ (x : List Byte) (f : Frame), decodeFrame x = .frame f → encodeFrame f.command f.payload = some x)
  ∧ (∀ (c d : Byte) (p q f : List Byte), encodeFrame c p = some f → encodeFrame d q = some f → c = d ∧ p = q)

/-- 40 R95: the laws of the checksum. -/
def Obligations.ChecksumLaws : Prop :=
  (∀ x y : List Byte, xorFold (x ++ y) = xorFold x ^^^ xorFold y)
  ∧ (∀ x y : List Byte, x.Perm y → xorFold x = xorFold y)
  ∧ (∀ x : List Byte, xorFold (x ++ x) = 0)
  ∧ (∀ x : List Byte, xorFold (x ++ [xorFold x]) = 0)
  ∧ (∀ (x y : List Byte) (a b : Byte), xorFold (x ++ a :: y) ^^^ xorFold (x ++ b :: y) = a ^^^ b)
  ∧ (∀ (x : List Byte) (k : Nat), k < 8 → (xorFold x).getLsbD k = ((x.countP (fun b => b.getLsbD k)) % 2 == 1))

/-- 30 R66: the last condition of `Valid` may be written as: the covered bytes and the checksum byte fold to zero. -/
def Obligations.ValidIffTailFoldsToZero : Prop :=
  ∀ x : List Byte, isValidFrame x = true ↔
    (headerAt x 0 ∧ 6 ≤ x.length ∧ x.length = 6 + le16 (byteAt x 3) (byteAt x 4) ∧ xorFold (x.drop 2) = 0)

/-- 30 R74: for every command and payload exactly one valid frame, and every valid frame is the encoding of its own
fields. -/
def Obligations.EncodingIsOneToOne : Prop :=
  (∀ (c : Byte) (p : List Byte), p.length ≤ 65535 →
      ∃! f : List Byte, isValidFrame f = true ∧ frameOf f = { command := c, payload := p })
  ∧ (∀ x : List Byte, isValidFrame x = true → encodeFrame (frameOf x).command (frameOf x).payload = some x)

/-! ### The Stream Parser: RESET, APPEND, PARSE -/

/-- 41 R110, 70 R210: reset leaves an empty buffer, and RESET does the same in every state and touches nothing else. -/
def Obligations.ResetEmptiesBuffer : Prop :=
  State.reset.buf = [] ∧ ∀ s : State, exec .reset s = .next { s with buf := [] }

/-- 00 R6: the machine after reset takes the values of this hardware (skip 2, quiescent, unbounded), and no run of
instructions changes them. -/
def Obligations.RunsKeepHardwareParameters : Prop :=
  ∀ (is : List Instr) (t : State), runOps is State.reset = .next t →
    t.params.resyncSkip.bytes = 2 ∧ t.params.drainPolicy = .quiescent ∧ t.params.bufCap = none

/-- 41 R111: APPEND adds the chunk at the tail and changes nothing else; over a finite capacity it faults with both
lengths; an empty chunk changes nothing; two in a row equal one of the concatenation. -/
def Obligations.AppendExtendsOrOverflows : Prop :=
  ∀ (s : State) (c d : List Byte),
    (fits s c.length → exec (.append c) s = .next { s with buf := s.buf ++ c })
    ∧ (∀ cap, s.params.bufCap = some cap → cap < s.buf.length + c.length →
        exec (.append c) s = .fault (.bufferOverflow s.buf.length c.length))
    ∧ (withinCap s → exec (.append []) s = .next s)
    ∧ (fits s (c ++ d).length → runOps [.append c, .append d] s = exec (.append (c ++ d)) s)

/-- 41 R114, 00 R9: the search finds the lowest offset of the pair `AA 55`, and nothing exactly when the pair does not
occur. -/
def Obligations.FindHeaderIsLowest : Prop :=
  ∀ b : List Byte,
    (∀ i, findHeader b = some i ↔ firstHeader b i) ∧ (findHeader b = none ↔ ∀ i, ¬ headerAt b i)

/-- 41 R113, R114, R115, R116, R117, R118, R119: one attempt, in every state, on every buffer: the outcome and the buffer
after. The attempt completes on every buffer, and when it yields nothing it changes nothing else. -/
def Obligations.ParseAttemptFollowsSteps : Prop :=
  ∀ s : State,
    ((∀ i, ¬ headerAt s.buf i) →
      exec .parse s = .next { s with
        buf := s.buf.drop (s.buf.length - 1)
        results := s.results ++ [.parsed .noHeader] })
    ∧ (∀ i t n, firstHeader s.buf i → t = s.buf.drop i → n = le16 (byteAt t 3) (byteAt t 4) →
      (t.length < 6 →
        exec .parse s = .next { s with buf := t, results := s.results ++ [.parsed .needMin] })
      ∧ (6 ≤ t.length → t.length < n + 6 →
        exec .parse s = .next { s with buf := t, results := s.results ++ [.parsed .needBody] })
      ∧ (6 ≤ t.length → n + 6 ≤ t.length → xorFold (slice t 2 (5 + n)) = byteAt t (5 + n) →
        ∃ u, exec .parse s = .next u
          ∧ u.buf = t.drop (n + 6)
          ∧ u.results = s.results ++ [.parsed (.frame { command := byteAt t 2, payload := slice t 5 (5 + n) })])
      ∧ (6 ≤ t.length → n + 6 ≤ t.length → xorFold (slice t 2 (5 + n)) ≠ byteAt t (5 + n) →
        exec .parse s = .next { s with
          buf := t.drop s.params.resyncSkip.bytes
          results := s.results ++ [.parsed .corrupt] }))

/-- 42 R150, 43 R162: a frame PARSE yields goes to the dispatcher, and so does each frame DRAIN yields, in order; what the
dispatcher does with them is all that changes beside the buffer and the results. That a PARSE issued alone dispatches too
is the model's reading (log entry 9). -/
def Obligations.YieldedFramesReachDispatcher : Prop :=
  ∀ s : State,
    (∀ f, (parseBuf s.params.resyncSkip s.buf).1 = .frame f →
      ∃ u, exec .parse s = .next u ∧ u.accum = (dispatch s f).accum ∧ u.observations = (dispatch s f).observations)
    ∧ ∃ u, exec .drain s = .next u
      ∧ u.accum = ((drainBuf s.params s.buf).1.foldl dispatch s).accum
      ∧ u.observations = ((drainBuf s.params s.buf).1.foldl dispatch s).observations

/-- 41 R125: after an attempt that waits, the buffer is quiescent: a second attempt reports the same outcome and drops
nothing. -/
def Obligations.WaitIsIdempotent : Prop :=
  ∀ (skip : ResyncSkip) (b : List Byte), (parseBuf skip b).1.isWait = true →
    parseBuf skip (parseBuf skip b).2 = parseBuf skip b

/-- 10 R31, 41 R125: a buffer is quiescent exactly when it is in one of the phases HUNT, HDR, BODY, and the phases
exclude each other. -/
def Obligations.QuiescentIffOnePhase : Prop :=
  ∀ (skip : ResyncSkip) (b : List Byte),
    (isQuiescent skip b = true ↔ (inHunt b = true ∨ inHdr b = true ∨ inBody b = true))
    ∧ ¬ (inHunt b = true ∧ inHdr b = true) ∧ ¬ (inHunt b = true ∧ inBody b = true)
    ∧ ¬ (inHdr b = true ∧ inBody b = true)

/-- 40 R98: with a whole candidate at the head, PARSE yields what DECODE of the candidate gives, reports `Corrupt`
exactly on its bad checksum, and DECODE can say nothing else of it. -/
def Obligations.ParseAgreesWithDecode : Prop :=
  ∀ (skip : ResyncSkip) (b : List Byte) (n : Nat), headerAt b 0 → n = 6 + le16 (byteAt b 3) (byteAt b 4) →
    n ≤ b.length →
    (∀ f : Frame, (parseBuf skip b).1 = .frame f ↔ decodeFrame (b.take n) = .frame f)
    ∧ ((parseBuf skip b).1 = .corrupt ↔ decodeFrame (b.take n) = .invalid .badChecksum)
    ∧ ((∃ f, decodeFrame (b.take n) = .frame f) ∨ decodeFrame (b.take n) = .invalid .badChecksum)

/-- 41 R127, R126 (a): a yielded frame is a valid frame whose bytes are one contiguous run of the buffer, gone after the
attempt; what stood behind it stays. -/
def Obligations.YieldedFrameWasContiguous : Prop :=
  ∀ (skip : ResyncSkip) (b b' : List Byte) (f : Frame), parseBuf skip b = (.frame f, b') →
    ∃ gone, b = gone ++ f.bytes ++ b' ∧ isValidFrame f.bytes = true ∧ ∀ i, i < gone.length → ¬ headerAt b i

/-- 41 R128 (1): a valid frame followed by any bytes is extracted whole and the bytes are left for the next call. -/
def Obligations.ValidFrameThenGarbage : Prop :=
  ∀ (skip : ResyncSkip) (x g : List Byte), isValidFrame x = true → parseBuf skip (x ++ g) = (.frame (frameOf x), g)

/-- 41 R128 (2): a corrupt frame with no header pair behind its own, followed by a valid frame: the first attempt reports
`Corrupt`, the second yields the valid frame. -/
def Obligations.ResynchronisesToNextFrame : Prop :=
  ∀ (skip : ResyncSkip) (x f : List Byte), headerAt x 0 → 6 ≤ x.length →
    x.length = 6 + le16 (byteAt x 3) (byteAt x 4) → xorFold (x.drop 2) ≠ 0 → (∀ i, ¬ headerAt (x.drop 2) i) →
    isValidFrame f = true →
    ∃ b', parseBuf skip (x ++ f) = (.corrupt, b') ∧ parseBuf skip b' = (.frame (frameOf f), [])

/-! ### The Stream Parser: DRAIN and runs -/

/-- 41 R120: DRAIN completes, and its frames and buffer are those of the loop: after a frame it goes on, after `Corrupt` it
goes on only under the quiescent policy, and it ends at every other outcome. -/
def Obligations.DrainIsTheParseLoop : Prop :=
  (∀ s : State, exec .drain s = .next ((drainBuf s.params s.buf).1.foldl dispatch { s with
      buf := (drainBuf s.params s.buf).2
      results := s.results ++ [.drained (drainBuf s.params s.buf).1] }))
  ∧ (∀ (p : Params) (b b' : List Byte) (o : ParseOutcome), parseBuf p.resyncSkip b = (o, b') →
      (∀ f, o = .frame f → drainBuf p b = (f :: (drainBuf p b').1, (drainBuf p b').2))
      ∧ (o = .corrupt → p.drainPolicy = .quiescent → drainBuf p b = drainBuf p b')
      ∧ (o = .corrupt → p.drainPolicy = .firstNoFrame → drainBuf p b = ([], b'))
      ∧ (o.isWait = true → drainBuf p b = ([], b')))

/-- 41 R121: `n div RESYNC_SKIP + 1` attempts are enough for a drain of `n` bytes. -/
def Obligations.DrainEndsWithinBound : Prop :=
  ∀ (p : Params) (b : List Byte) (k : Nat), b.length / p.resyncSkip.bytes + 1 ≤ k → drainFrom p k b = drainBuf p b

/-- 41 R125: a drain under the quiescent policy leaves a quiescent buffer. -/
def Obligations.DrainLeavesQuiescent : Prop :=
  ∀ (p : Params) (b : List Byte), p.drainPolicy = .quiescent → isQuiescent p.resyncSkip (drainBuf p b).2 = true

/-- 41 R130, 60 R187: with chunks of at most `k` bytes, each drained to quiescence, a capacity of 65540 + k is never
exceeded: the whole run completes. -/
def Obligations.BoundedChunksNeverOverflow : Prop :=
  ∀ (s : State) (k cap : Nat) (cs : List (List Byte)), s.params.drainPolicy = .quiescent →
    s.params.bufCap = some cap → 65540 + k ≤ cap → s.buf.length ≤ 65540 → (∀ c ∈ cs, c.length ≤ k) →
    ∃ t, runOps (cs.flatMap (fun c => [.append c, .drain])) s = .next t ∧ t.buf.length ≤ 65540

/-- 20 R49 (b), (c), 41 R127: the frames of a drain stand in the buffer one after the other, each a contiguous valid
frame, in the order they are returned; between them and after them stand only dropped bytes and the bytes kept. -/
def Obligations.DrainedFramesInStreamOrder : Prop :=
  ∀ (p : Params) (b : List Byte), ∃ (gaps : List (List Byte)) (last : List Byte),
    gaps.length = (drainBuf p b).1.length
    ∧ b = (List.zipWith (fun g f => g ++ Frame.bytes f) gaps (drainBuf p b).1).flatten ++ last ++ (drainBuf p b).2
    ∧ ∀ f ∈ (drainBuf p b).1, isValidFrame f.bytes = true

/-- 20 R49 (a): over any run of instructions without RESET, what was in the buffer and then all the bytes that arrived
equals the bytes gone, then the buffer: nothing is reordered, changed, invented or lost from the tail. -/
def Obligations.StreamIsConserved : Prop :=
  ∀ (is : List Instr) (s t : State), .reset ∉ is → runOps is s = .next t →
    ∃ gone, s.buf ++ is.flatMap arrivingBytes = gone ++ t.buf

/-- 20 R55: under the quiescent policy every way of cutting a stream into chunks, each appended and drained, gives the
same frames in the same order, the same host effects and the same buffer as the whole stream at once. -/
def Obligations.ChunkingDoesNotMatter : Prop :=
  ∀ (s : State) (cs : List (List Byte)), s.params.drainPolicy = .quiescent → s.params.bufCap = none →
    ∃ t u, runOps (.reset :: cs.flatMap (fun c => [.append c, .drain])) s = .next t
      ∧ runOps [.reset, .append cs.flatten, .drain] s = .next u
      ∧ t.yielded = u.yielded ∧ t.buf = u.buf ∧ t.accum = u.accum ∧ t.observations = u.observations

/-- 20 R55, second part: over the same chunks, each appended and drained, the machine under `first_no_frame` yields a
prefix of the frames it yields under `quiescent`, and further drains without new bytes bring it to the same frames, the
same buffer and the same host effects. -/
def Obligations.FirstNoFrameOnlyDelays : Prop :=
  ∀ (s l : State) (cs : List (List Byte)), s.params.drainPolicy = .quiescent → s.params.bufCap = none →
    l = { s with params := { s.params with drainPolicy := .firstNoFrame } } →
    ∃ t u, runOps (.reset :: cs.flatMap (fun c => [.append c, .drain])) s = .next t
      ∧ runOps (.reset :: cs.flatMap (fun c => [.append c, .drain])) l = .next u
      ∧ u.yielded <+: t.yielded
      ∧ ∃ n v, runOps (List.replicate n .drain) u = .next v
        ∧ v.yielded = t.yielded ∧ v.buf = t.buf ∧ v.accum = t.accum ∧ v.observations = t.observations

/-- 41 R129: under the quiescent policy the skip count cannot be seen: both values give the same frames and the same
buffer. -/
def Obligations.SkipCountIsInvisible : Prop :=
  ∀ (p q : Params) (b : List Byte), p.drainPolicy = .quiescent → q.drainPolicy = .quiescent →
    drainBuf p b = drainBuf q b

/-! ### The wire commands -/

/-- 30 R77, 40 R92, 42 R141 to R149: sending each of the nine commands. -/
def Obligations.SendWritesTheFrame : Prop :=
  SendsFrame 0x01 .startRecord ∧ SendsFrame 0x02 .stopRecord ∧ SendsFrame 0x03 .audioData
  ∧ SendsFrame 0x04 .startPlay ∧ SendsFrame 0x05 .stopPlay ∧ SendsFrame 0x06 .handshake
  ∧ SendsFrame 0x07 .ack ∧ SendsFrame 0x08 .setFormat ∧ ∀ c, SendsFrame c (.unnamedCommand c)

/-- 43 R162, 42 R140: receiving each of the nine commands is APPEND of its frame, then DRAIN, in every state with room. -/
def Obligations.ReceiveFeedsTheFrame : Prop :=
  FeedsFrame 0x01 .startRecord ∧ FeedsFrame 0x02 .stopRecord ∧ FeedsFrame 0x03 .audioData
  ∧ FeedsFrame 0x04 .startPlay ∧ FeedsFrame 0x05 .stopPlay ∧ FeedsFrame 0x06 .handshake
  ∧ FeedsFrame 0x07 .ack ∧ FeedsFrame 0x08 .setFormat ∧ ∀ c, FeedsFrame c (.unnamedCommand c)

/-- 42 R140, R150: an intact frame of each command, received on an empty buffer, is yielded and dispatched: audio-data to
the accumulator, ack named, every other value not recognized. That audio-data extends the accumulator also while no Record
is open is the model's choice (log entry 10). -/
def Obligations.IntactCommandIsDispatched : Prop :=
  DeliversFrame 0x01 .startRecord (notRecognizedEffect 0x01) ∧ DeliversFrame 0x02 .stopRecord (notRecognizedEffect 0x02)
  ∧ DeliversFrame 0x03 .audioData audioEffect
  ∧ DeliversFrame 0x04 .startPlay (notRecognizedEffect 0x04) ∧ DeliversFrame 0x05 .stopPlay (notRecognizedEffect 0x05)
  ∧ DeliversFrame 0x06 .handshake (notRecognizedEffect 0x06)
  ∧ DeliversFrame 0x07 .ack ackEffect
  ∧ DeliversFrame 0x08 .setFormat (notRecognizedEffect 0x08)
  ∧ ∀ c, isUnnamed c = true → DeliversFrame c (.unnamedCommand c) (notRecognizedEffect c)

/-- 42 R150: the dispatcher's three arms, each changing the named fields only. That audio-data extends the accumulator
also while no Record is open is the model's choice (log entry 10). -/
def Obligations.DispatcherArms : Prop :=
  ∀ (s : State) (f : Frame),
    (f.command = 0x03 → dispatch s f = audioEffect f.payload s)
    ∧ (f.command = 0x07 → dispatch s f = ackEffect f.payload s)
    ∧ (f.command ≠ 0x03 → f.command ≠ 0x07 → dispatch s f = notRecognizedEffect f.command f.payload s)

/-! ### The whole machine -/

/-- When the bytes the Reader Task reads decode to an instruction, the step is that instruction's exec with the move taken
off the script; an operation the host issues is run the same way; with an empty script nothing changes. -/
def Obligations.StepRunsDecodedInstr : Prop :=
  (∀ (s : State) (bytes : List Byte) (rest : List Event) (i : Instr), s.taskAlive = true → s.running = true →
      s.script = .read (.data bytes) :: rest → decodeWire bytes = .ok i →
      step s = exec i { s with script := rest })
  ∧ (∀ (s : State) (rest : List Event) (i : Instr), s.script = .op i :: rest → step s = exec i { s with script := rest })
  ∧ (∀ s : State, s.script = [] → step s = .next s)

/-- 43 R162: data the Reader Task reads, whatever the bytes, is appended and drained. -/
def Obligations.ReaderTurnFeedsEveryChunk : Prop :=
  ∀ (s : State) (bytes : List Byte), s.taskAlive = true → s.running = true →
    readerTurn (.data bytes) s = runOps [.append bytes, .drain] s

/-- 10 R20: `buf` is written by the Stream Parser's operations alone: the codec operations and every sent command leave it,
and every other instruction leaves the bytes it keeps in place: appended at the tail, dropped at the head, or cleared. -/
def Obligations.BufferChangesOnlyAtItsEnds : Prop :=
  ∀ (i : Instr) (s t : State), exec i s = .next t →
    (∀ x, i = .checksum x → t.buf = s.buf) ∧ (∀ c x, i = .encode c x → t.buf = s.buf)
    ∧ (∀ x, i = .decode x → t.buf = s.buf) ∧ (i = .reset → t.buf = [])
    ∧ (∀ x, i = .append x → t.buf = s.buf ++ x) ∧ (i = .parse → t.buf <:+ s.buf) ∧ (i = .drain → t.buf <:+ s.buf)
    ∧ (∀ bytes, encode i = some bytes → i.received ≠ i → t.buf = s.buf)
    ∧ (∀ bytes, encode i = some bytes → i.received = i → t.buf <:+ s.buf ++ bytes)

/-- 10 R27, 20 R44: every byte of the buffer, read by its offset: CHECKSUM, ENCODE, DECODE and every sent command leave each
one; APPEND leaves each old one and puts the chunk behind them; PARSE and DRAIN move each kept one down by the number of
bytes dropped, and a received command does so after its frame has joined the tail; RESET leaves none. -/
def Obligations.EveryByteReadsAsStated : Prop :=
  ∀ (i : Instr) (s t : State), exec i s = .next t →
    ((∀ off, (∃ x, i = .checksum x) ∨ (∃ c x, i = .encode c x) ∨ (∃ x, i = .decode x)
        ∨ (encode i ≠ none ∧ i.received ≠ i) → readByte t.buf off = readByte s.buf off))
    ∧ (∀ c off, i = .append c →
        (off < s.buf.length → readByte t.buf off = readByte s.buf off)
        ∧ readByte t.buf (s.buf.length + off) = readByte c off)
    ∧ (∀ off, i = .parse ∨ i = .drain →
        readByte t.buf off = readByte s.buf (s.buf.length - t.buf.length + off))
    ∧ (∀ bytes off, encode i = some bytes → i.received = i →
        readByte t.buf off = readByte (s.buf ++ bytes) ((s.buf ++ bytes).length - t.buf.length + off))
    ∧ (∀ off, i = .reset → readByte t.buf off = none)

/-- The frame of every instruction: parameters, script and session fields never change; only a send writes the transport;
only parsing, draining and receiving reach the accumulator and the observations; a result is only ever added. -/
def Obligations.InstructionFrames : Prop :=
  ∀ (i : Instr) (s t : State), exec i s = .next t →
    t.params = s.params ∧ t.session = s.session ∧ t.running = s.running ∧ t.taskAlive = s.taskAlive
    ∧ t.failed = s.failed ∧ t.taskFailed = s.taskFailed ∧ t.script = s.script ∧ s.results <+: t.results ∧ s.wireOut <+: t.wireOut ∧ s.accum <+: t.accum
    ∧ s.observations <+: t.observations
    ∧ ((encode i = none ∨ i.received = i) → t.wireOut = s.wireOut)
    ∧ ((encode i = none → i ≠ .parse → i ≠ .drain → t.accum = s.accum ∧ t.observations = s.observations))
    ∧ ((encode i ≠ none → i.received ≠ i →
        t.results = s.results ∧ t.accum = s.accum ∧ t.observations = s.observations))

/-- 60 R180: only APPEND and a received command fault, and only where the bytes they bring exceed a finite capacity; only
ENCODE and the wire commands are refused, and only for a payload the format cannot state. The fault carries both lengths,
the refusal that of the payload. With the unbounded buffer of this hardware no instruction faults. -/
def Obligations.OnlyOverflowAndOversizeStop : Prop :=
  ∀ (i : Instr) (s : State),
    (∀ r, exec i s = .fault r →
      ((∃ c, i = .append c) ∨ (encode i ≠ none ∧ i.received = i))
      ∧ ∃ cap, s.params.bufCap = some cap ∧ cap < s.buf.length + (arrivingBytes i).length
        ∧ r = .bufferOverflow s.buf.length (arrivingBytes i).length)
    ∧ (∀ r, exec i s = .refused r → 65535 < i.payload.length ∧ r = .encodeOversize i.payload.length)

/-- 10 R28, R29, 43 R164: what the block does depends on `buf` and the parameters alone: two states that agree on them
stop alike, or reach the same buffer with the same results added. -/
def Obligations.BlockIgnoresHostState : Prop :=
  ∀ (i : Instr) (s t : State), s.buf = t.buf → s.params = t.params →
    (∀ r, exec i s = .fault r ↔ exec i t = .fault r) ∧ (∀ r, exec i s = .refused r ↔ exec i t = .refused r)
    ∧ (∀ s', exec i s = .next s' → ∃ t' added, exec i t = .next t' ∧ t'.buf = s'.buf
        ∧ s'.results = s.results ++ added ∧ t'.results = t.results ++ added)

/-- 00 R6, 10 R25, 41 R111, 43 R163, R164, R166: every step keeps the machine's invariant and its parameters, from every state that
meets it. That an operation counts as failed only while open rests on log entries 27 and 28. -/
def Obligations.StepKeepsInvariant : Prop :=
  ∀ s t : State, Inv s → step s = .next t → Inv t ∧ t.params = s.params

/-- The machine's invariant holds after reset. -/
def Obligations.ResetMeetsInvariant : Prop := Inv State.reset

/-! ### The host around the block -/

/-- 43 R163, R164: from Idle, a Handshake raises the running flag, sends its one frame, drops the flag and is Idle again, and
nothing else has changed, but that no failure is noted. That the sequence reads no reply is the model's choice (log entry 26). -/
def Obligations.HandshakeSendsOneFrame : Prop :=
  ∀ s : State, s.session = .idle →
    runEvents (handshakeScript.take 2) s = .next { s with
      wireOut := s.wireOut ++ [0xAA, 0x55, 0x06, 0x00, 0x00, 0x06]
      session := .handshaking
      running := true
      failed := false
      taskFailed := false }
    ∧ runEvents handshakeScript s = .next { s with
      wireOut := s.wireOut ++ [0xAA, 0x55, 0x06, 0x00, 0x00, 0x06]
      running := false
      failed := false
      taskFailed := false }

/-- 42 R151: the pieces of a source: `ceil(L / K)` of them, their concatenation the source, each of 1 to `K` bytes and every
one but the last of exactly `K`; 2049 bytes in pieces of 512 give 512, 512, 512, 512, 1. -/
def Obligations.PlayChunkCounts : Prop :=
  (∀ (k : Nat) (src : List Byte), 0 < k →
      (chunksOf k src).length = (src.length + k - 1) / k
      ∧ (chunksOf k src).flatten = src
      ∧ (∀ c ∈ chunksOf k src, 1 ≤ c.length ∧ c.length ≤ k)
      ∧ (∀ c ∈ (chunksOf k src).dropLast, c.length = k))
  ∧ (∀ src : List Byte, src.length = 2049 → (chunksOf 512 src).map List.length = [512, 512, 512, 512, 1])

/-- 43 R163, R164, 70 R214: from Idle, a Record opens with an empty accumulator, the flag up and a live Reader Task, sends
start-record, and finds `buf` either as it was or cleared, as the open parameter decides (log entry 13). The empty payload
of start-record is log entry 24. -/
def Obligations.RecordStartPreparesReader : Prop :=
  ∀ s : State, s.session = .idle → ∃ b, (b = s.buf ∨ b = []) ∧
    runEvents recordStartScript s = .next { s with
      buf := b
      accum := []
      running := true
      taskAlive := true
      session := .recording
      failed := false
      taskFailed := false
      wireOut := s.wireOut ++ [0xAA, 0x55, 0x01, 0x00, 0x00, 0x01] }

/-- 43 R163, R168, 42 R151: from Idle, a Play, run to its end or cancelled after `n` chunk sends, writes one set-format
frame, one start-play frame, the audio-data frames sent so far in order and one stop-play frame, reports each chunk's
index, and leaves the controller Idle, the flag down and no task. That the indices count from 0 is the model's choice (log entry 25); the empty
payloads of start-play and stop-play are log entry 24. -/
def Obligations.PlayWritesItsFrames : Prop :=
  ∀ (s : State) (fmt : AudioFormat) (src : List Byte) (script : List Event) (sent : List (List Byte)),
    s.session = .idle →
    ((script = playScript fmt src ∧ sent = chunksOf fmt.chunkBytes src)
      ∨ (∃ n, script = playCancelled fmt src n ∧ sent = (chunksOf fmt.chunkBytes src).take n)) →
    ∃ t, runEvents script s = .next t
      ∧ t.wireOut = s.wireOut ++ frameBytes 0x08 [fmt.tag] (frameChecksum 0x08 [fmt.tag])
          ++ [0xAA, 0x55, 0x04, 0x00, 0x00, 0x04]
          ++ (sent.map (fun c => frameBytes 0x03 c (frameChecksum 0x03 c))).flatten
          ++ [0xAA, 0x55, 0x05, 0x00, 0x00, 0x05]
      ∧ t.session = .idle ∧ t.running = false ∧ t.taskAlive = false ∧ t.failed = false ∧ t.taskFailed = false
      ∧ t.accum = [] ∧ t.script = s.script
      ∧ t.results = s.results
      ∧ t.observations = s.observations ++ (List.range sent.length).map .chunkProgress
      ∧ (t.buf = s.buf ∨ t.buf = [])

/-- 43 R163, R168, R169: closing a Record that has not failed, whose task has not, and whose flag is up sends stop-record, ends
the task, and hands the accumulator to the WAV writer, or reports no data when it is empty. The empty payload of stop-record
is log entry 24, the hand-over as an observation log entry 20; that a cancelled Record, which closes by the same sequence,
hands over or reports too is the model's choice (log entry 31). -/
def Obligations.RecordEndReports : Prop :=
  ∀ s : State, s.session = .recording → s.running = true → s.failed = false → s.taskFailed = false →
    runEvents recordStopScript s = .next { s with
      wireOut := s.wireOut ++ [0xAA, 0x55, 0x02, 0x00, 0x00, 0x02]
      running := false
      taskAlive := false
      session := .idle
      accum := []
      observations := s.observations
        ++ [if s.accum = [] then .noData
            else .wavHandOver s.accum { sampleRateHz := 8000, bitsPerSample := 16, channels := 1 }] }

/-- 43 R162, R166: a live Reader Task that sees the flag down ends silently and reads nothing; a read error while the flag
is up is surfaced and ends the task, which leaves word of it for the join; a timeout changes nothing; `buf` stays in all three.
That poll and read are one move is the model's choice (log entry 11), and so is the word left for the join (log entry 29). -/
def Obligations.ReaderTaskEnds : Prop :=
  ∀ (s : State) (r : ReadResult), s.taskAlive = true →
    (s.running = false → readerTurn r s = .next { s with taskAlive := false })
    ∧ (s.running = true → readerTurn .error s =
        .next { s with
          observations := s.observations ++ [.transportFault .readFailed]
          taskAlive := false
          taskFailed := true })
    ∧ (s.running = true → readerTurn .timeout s = .next s)

/-- 43 R166, 60 R181 (a): a transport fault is surfaced and fatal to the open operation, with no retry. A failing write has
handed over what the transport took of the frame, and fails the operation; a failed operation sends nothing
more but its stop command (70 R225) and reports nothing more. That nothing else is sent and how much a failing write takes is
the model's choice (log entry 27), and so is that a transport that does not open leaves the controller Idle (log entry 28). -/
def Obligations.TransportFaultIsFatal : Prop :=
  ∀ s : State,
    (∀ (c : Byte) (p : List Byte) (n : Nat), s.session ≠ .idle →
      (s.failed = false ∨ stopCommand s.session = some c) → p.length ≤ 65535 →
      runEvent (.send c p (.failed n)) s = .next { s with
        wireOut := s.wireOut ++ (frameBytes c p (frameChecksum c p)).take n
        observations := s.observations ++ [.transportFault .writeFailed]
        failed := true })
    ∧ (s.session = .idle → runEvent .openFails s = .next { s with
        observations := s.observations ++ [.transportFault .openFailed]
        failed := false })
    ∧ (∀ (c : Byte) (p : List Byte) (w : WriteResult), s.failed = true → stopCommand s.session ≠ some c →
      runEvent (.send c p w) s = .next s)
    ∧ (∀ (c : Byte) (p : List Byte), (s.failed = false ∨ stopCommand s.session = some c) → p.length ≤ 65535 →
      runEvent (.send c p .written) s = .next { s with wireOut := s.wireOut ++ frameBytes c p (frameChecksum c p) })
    ∧ (∀ k, s.failed = true → runEvent (.reportChunk k) s = .next s)

/-- 43 R166, R167, R168, 70 R225: whatever is left of a Record that a write or its task's read error has failed, or of a Play
that a write has failed or whose pieces are all sent, its closing sequence sends the matching stop command and leaves the
controller Idle with the flag down and no task. That it sends nothing else, reports no chunk and, for a Record, neither hands
the accumulator over nor reports that no data came, is the model's choice (log entry 27, for a read error also log entry 29);
so is that the accumulator is discarded for a Play too (log entry 10). The empty payload of the stop command is log entry 24. -/
def Obligations.FailedOperationShutsDown : Prop :=
  ∀ (s : State) (pieces : List (List Byte)) (k : Nat) (script : List Event) (stop : Byte),
    s.running = true →
    (s.session = .recording ∧ (s.failed = true ∨ s.taskFailed = true) ∧ stop = 0x02 ∧ script = recordStopScript
      ∨ s.session = .playing ∧ (s.failed = true ∨ pieces = []) ∧ stop = 0x05
          ∧ script = audioSends k pieces ++ playStopScript) →
    runEvents script s = .next { s with
      wireOut := s.wireOut ++ [0xAA, 0x55, stop, 0x00, 0x00, stop]
      running := false
      taskAlive := false
      failed := false
      taskFailed := false
      session := .idle
      accum := [] }

/-- 30 R71: a wire command has bytes exactly when its payload is one the length field can state, at either end of the link;
then they begin with the header, and their length field reads back as the payload's length. -/
def Obligations.EncodingExistsWhenPayloadFits : Prop :=
  ∀ (c : Byte) (d : Link) (p : List Byte),
    (encode (instrOfCommand c d p) = none ↔ 65535 < p.length)
    ∧ (∀ bytes, encode (instrOfCommand c d p) = some bytes →
        headerAt bytes 0 ∧ byteAt bytes 2 = c ∧ le16 (byteAt bytes 3) (byteAt bytes 4) = p.length
          ∧ slice bytes 5 (5 + p.length) = p ∧ bytes.length = p.length + 6)

/-- 70 R225, 43 R163, R168: from Idle, over an unbounded buffer, a Record writes its start command and its matching stop
command and nothing else, and ends Idle with the flag down and no task, whatever the Reader Task's reads return in between,
read errors included. The empty payloads are log entry 24. -/
def Obligations.RecordAlwaysSendsItsStop : Prop :=
  ∀ (s : State) (reads : List ReadResult), s.session = .idle → s.params.bufCap = none →
    ∃ t, runEvents (recordStartScript ++ reads.map .read ++ recordStopScript) s = .next t
      ∧ t.wireOut = s.wireOut ++ [0xAA, 0x55, 0x01, 0x00, 0x00, 0x01] ++ [0xAA, 0x55, 0x02, 0x00, 0x00, 0x02]
      ∧ t.session = .idle ∧ t.running = false ∧ t.taskAlive = false ∧ t.failed = false ∧ t.taskFailed = false ∧ t.accum = []

/-- 70 R225, 43 R163, R168: from Idle, a Play one of whose audio-data writes fails writes what the transport took of that
frame, tries none of the pieces after it, and still writes its matching stop command and ends Idle. How much the failing
write takes and that the later pieces are not tried is the model's choice (log entry 27); the empty payloads are log entry 24. -/
def Obligations.PlayWithFailedWriteSendsItsStop : Prop :=
  ∀ (s : State) (fmt : AudioFormat) (before after : List (List Byte)) (piece : List Byte) (n : Nat),
    s.session = .idle → (∀ c ∈ before ++ [piece], c.length ≤ 65535) →
    ∃ t, runEvents ([.startSession .play, .send 0x08 [fmt.tag] .written, .send 0x04 [] .written] ++ audioSends 0 before
        ++ [.send 0x03 piece (.failed n)] ++ audioSends (before.length + 1) after ++ playStopScript) s = .next t
      ∧ t.wireOut = s.wireOut ++ frameBytes 0x08 [fmt.tag] (frameChecksum 0x08 [fmt.tag])
          ++ [0xAA, 0x55, 0x04, 0x00, 0x00, 0x04]
          ++ (before.map (fun c => frameBytes 0x03 c (frameChecksum 0x03 c))).flatten
          ++ (frameBytes 0x03 piece (frameChecksum 0x03 piece)).take n
          ++ [0xAA, 0x55, 0x05, 0x00, 0x00, 0x05]
      ∧ t.observations = s.observations ++ (List.range before.length).map .chunkProgress ++ [.transportFault .writeFailed]
      ∧ t.session = .idle ∧ t.running = false ∧ t.taskAlive = false ∧ t.failed = false ∧ t.taskFailed = false ∧ t.accum = []

/-- 43 R164, R165, 00 R11: the running flag is down while no operation is open, goes false to true at the start of every
operation, a Handshake among them, and true to false at its stop; no second start is made inside an operation, and no other
move writes it: not the Reader Task's, not an instruction. That a start with an operation open is refused, and that a stop
made with the flag already down, or with no operation open, completes and leaves it down, is the model's choice (log entry
12), and so is that a join clears a flag still set (log entry 15). -/
def Obligations.FlagTransitionsOncePerOperation : Prop :=
  (∀ s : State, Inv s → s.session = .idle → s.running = false)
  ∧ (∀ (k : SessionKind) (s : State), s.session = .idle →
      ∃ t, runEvent (.startSession k) s = .next t ∧ t.running = true ∧ t.session ≠ .idle)
  ∧ (∀ (k : SessionKind) (s : State), s.session ≠ .idle → runEvent (.startSession k) s = .refused .sessionBusy)
  ∧ (∀ s : State, runEvent .stopSession s = .next { s with running := false })
  ∧ (∀ (s t : State), s.session ≠ .idle → runEvent .joinSession s = .next t → t.running = false ∧ t.session = .idle)
  ∧ (∀ (e : Event) (s t : State), runEvent e s = .next t → (∀ k, e ≠ .startSession k) → e ≠ .stopSession →
      e ≠ .joinSession → t.running = s.running)

/-- 43 R162, R167: a join never returns only while the Reader Task is alive and its flag up, which is the model's stop
(log entry 15); otherwise it completes in every state, whether or not a stop command was sent (log entry 30), and with no
operation open it changes nothing (log entry 12). -/
def Obligations.JoinCompletesUnlessReaderLoops : Prop :=
  ∀ s : State,
    (runEvent .joinSession s = .fault .joinBeforeStop ↔
      s.taskAlive = true ∧ s.running = true ∧ (s.session = .recording ∨ s.session = .playing))
    ∧ ((s.taskAlive = false ∨ s.running = false ∨ s.session = .handshaking ∨ s.session = .idle) → ∃ t, runEvent .joinSession s = .next t ∧ t.session = .idle)
    ∧ (s.session = .idle → runEvent .joinSession s = .next s)

/-- 43 R165, 90 C9: the flag and the accumulator are all that the Session Controller and the Reader Task share. No move the
controller makes between an operation's start and its join depends on anything the task writes (the buffer, the results, the
accumulator, whether it is alive, how it ended), nor does one write any of these; the start of an operation depends on none
of them either; and no turn of the task depends on what the controller writes but the flag, or writes any of it. The
observations, which both append to, are a history nothing reads (log entry 8): what a move appends does not depend on it.
That word of a read error is left for the join is the model's choice (log entry 29). What a start makes of the accumulator and
of `buf` rests on log entries 10 and 13, and a failing open on log entry 28. -/
def Obligations.ReaderAndControllerShareNoMore : Prop :=
  (∀ (e : Event) (s t : State) (b a : List Byte) (rs : List Result) (os : List Observation) (alive failed : Bool),
      ((∃ c p w, e = .send c p w) ∨ (∃ k, e = .reportChunk k) ∨ e = .openFails ∨ e = .stopSession) →
      runEvent e s = .next t →
      t.buf = s.buf ∧ t.results = s.results ∧ t.accum = s.accum ∧ t.taskAlive = s.taskAlive ∧ t.taskFailed = s.taskFailed
        ∧ ∃ added, t.observations = s.observations ++ added
          ∧ runEvent e { s with
              buf := b, results := rs, accum := a, observations := os, taskAlive := alive, taskFailed := failed }
            = .next { t with
              buf := b, results := rs, accum := a, observations := os ++ added, taskAlive := alive, taskFailed := failed })
  ∧ (∀ (k : SessionKind) (s t : State) (b a : List Byte) (rs : List Result) (os : List Observation) (alive failed : Bool),
      runEvent (.startSession k) s = .next t →
      runEvent (.startSession k) { s with
          buf := b, results := rs, accum := a, observations := os, taskAlive := alive, taskFailed := failed }
        = .next (if k = .handshake
            then { t with buf := b, results := rs, accum := a, observations := os, taskAlive := alive }
            else { t with buf := if Config.resetPerOperation then [] else b, results := rs, observations := os }))
  ∧ (∀ (r : ReadResult) (s t : State) (k : Session) (failed : Bool) (w : List Byte) (os : List Observation)
      (es : List Event), runEvent (.read r) s = .next t →
      t.running = s.running ∧ t.session = s.session ∧ t.failed = s.failed ∧ t.wireOut = s.wireOut ∧ t.script = s.script
        ∧ ∃ added, t.observations = s.observations ++ added
          ∧ runEvent (.read r) { s with session := k, failed := failed, wireOut := w, observations := os, script := es }
            = .next { t with session := k, failed := failed, wireOut := w, observations := os ++ added, script := es })
end

