-- ==== Sys2Proof/Laws/Bytes.lean ====
section
/-! SUPPORT. Laws of bytes, slices, the length field, the XOR fold and the laid-out frame. -/
namespace Sys2Proof.Machine

/-! ### The constants of R6 as numbers -/

@[simp] theorem header0_eq : Config.block.header0 = 0xAA := rfl
@[simp] theorem header1_eq : Config.block.header1 = 0x55 := rfl
@[simp] theorem headerLen_eq : Config.block.headerLen = 2 := rfl
@[simp] theorem cmdLen_eq : Config.block.cmdLen = 1 := rfl
@[simp] theorem lenLen_eq : Config.block.lenLen = 2 := rfl
@[simp] theorem chkLen_eq : Config.block.chkLen = 1 := rfl
@[simp] theorem maxPayload_eq : Config.block.maxPayload = 65535 := rfl
@[simp] theorem minFrame_eq : Config.block.minFrame = 6 := rfl
@[simp] theorem maxFrame_eq : Config.block.maxFrame = 65541 := rfl

/-! ### The XOR fold -/

theorem foldl_xor_start (s : List Byte) (a : Byte) :
    s.foldl (fun acc b => acc ^^^ b) a = a ^^^ xorFold s := by
  induction s generalizing a with
  | nil => simp [xorFold]
  | cons x t ih =>
    have h0 := ih (0 ^^^ x)
    simp only [List.foldl_cons, ih (a ^^^ x), xorFold, h0]
    simp [BitVec.xor_assoc]

@[simp] theorem xorFold_nil : xorFold [] = 0 := rfl

@[simp] theorem xorFold_cons (a : Byte) (s : List Byte) : xorFold (a :: s) = a ^^^ xorFold s := by
  have h := foldl_xor_start s (0 ^^^ a)
  simpa [xorFold] using h

/-- One more byte at the tail; the sequence may be anything (40 R95 (b), one-byte case). -/
theorem xorFold_concat (s : List Byte) (b : Byte) : xorFold (s ++ [b]) = xorFold s ^^^ b := by
  induction s with
  | nil => simp
  | cons a t ih => simp [ih, BitVec.xor_assoc]

/-! ### The length field -/

theorem le16_le (lo hi : Byte) : le16 lo hi ≤ 65535 := by
  have h1 := lo.isLt
  have h2 := hi.isLt
  simp only [le16]; omega

theorem le16_lo8_hi8 (n : Nat) (h : n ≤ 65535) : le16 (lo8 n) (hi8 n) = n := by
  simp only [le16, lo8, hi8, BitVec.toNat_ofNat]; omega

theorem lo8_le16 (lo hi : Byte) : lo8 (le16 lo hi) = lo := by
  have h1 := lo.isLt
  have h2 := hi.isLt
  apply BitVec.eq_of_toNat_eq
  simp only [lo8, le16, BitVec.toNat_ofNat]; omega

theorem hi8_le16 (lo hi : Byte) : hi8 (le16 lo hi) = hi := by
  have h1 := lo.isLt
  have h2 := hi.isLt
  apply BitVec.eq_of_toNat_eq
  simp only [hi8, le16, BitVec.toNat_ofNat]; omega

/-! ### Bytes and slices -/

theorem byteAt_eq (s : List Byte) (k : Nat) : byteAt s k = (s[k]?).getD 0 := by
  simp [byteAt, List.getD_eq_getElem?_getD]

@[simp] theorem byteAt_cons_zero (a : Byte) (s : List Byte) : byteAt (a :: s) 0 = a := rfl

@[simp] theorem byteAt_cons_succ (a : Byte) (s : List Byte) (k : Nat) : byteAt (a :: s) (k + 1) = byteAt s k := rfl

/-- A read inside the first part does not see the second: no verdict depends on bytes not yet needed. -/
theorem byteAt_append_left (s t : List Byte) (k : Nat) (h : k < s.length) : byteAt (s ++ t) k = byteAt s k := by
  simp [byteAt_eq, List.getElem?_append_left h]

theorem byteAt_append_length (s t : List Byte) (b : Byte) : byteAt (s ++ b :: t) s.length = b := by
  simp [byteAt_eq]

theorem slice_append_left (s t : List Byte) (a b : Nat) (h : b ≤ s.length) : slice (s ++ t) a b = slice s a b := by
  simp only [slice, List.drop_append]
  rw [List.take_append_of_le_length]
  simp only [List.length_drop]; omega

@[simp] theorem slice_length (s : List Byte) (a b : Nat) : (slice s a b).length = min (b - a) (s.length - a) := by
  simp [slice]

/-! ### The laid-out frame (30 R60) -/

@[simp] theorem frameBytes_length (c : Byte) (p : List Byte) (chk : Byte) :
    (frameBytes c p chk).length = p.length + 6 := by
  simp [frameBytes, coveredBytes]

theorem frameBytes_command (c : Byte) (p : List Byte) (chk : Byte) : byteAt (frameBytes c p chk) 2 = c := rfl

theorem frameBytes_lengthField (c : Byte) (p : List Byte) (chk : Byte) (h : p.length ≤ 65535) :
    le16 (byteAt (frameBytes c p chk) 3) (byteAt (frameBytes c p chk) 4) = p.length :=
  le16_lo8_hi8 p.length h

theorem frameBytes_payload (c : Byte) (p : List Byte) (chk : Byte) :
    slice (frameBytes c p chk) 5 (5 + p.length) = p := by
  simp [slice, frameBytes, coveredBytes]

theorem frameBytes_covered (c : Byte) (p : List Byte) (chk : Byte) :
    slice (frameBytes c p chk) 2 (5 + p.length) = coveredBytes c p := by
  have : 5 + p.length - 2 = p.length + 3 := by omega
  simp [slice, frameBytes, coveredBytes, this]

theorem frameBytes_checksum (c : Byte) (p : List Byte) (chk : Byte) :
    byteAt (frameBytes c p chk) (5 + p.length) = chk := by
  have : 5 + p.length = p.length + 5 := by omega
  rw [this]
  exact byteAt_append_length p [] chk

/-- A sequence of six bytes or more, begun by the header and as long as its length field states, is the frame of its own
fields (30 R60). -/
theorem eq_frameBytes (s : List Byte) (h0 : byteAt s 0 = Config.header0) (h1 : byteAt s 1 = Config.header1)
    (hlen : s.length = 6 + le16 (byteAt s 3) (byteAt s 4)) :
    s = frameBytes (byteAt s 2) (slice s 5 (s.length - 1)) (byteAt s (s.length - 1)) := by
  have h6 : 6 ≤ s.length := by omega
  match s, h6 with
  | a :: b :: c :: lo :: hi :: t, _ =>
    simp only [byteAt_cons_zero, byteAt_cons_succ, List.length_cons] at h0 h1 hlen
    have ht : t.length = le16 lo hi + 1 := by omega
    obtain ⟨p, chk, rfl⟩ : ∃ p chk, t = p ++ [chk] := by
      rcases List.eq_nil_or_concat t with h | ⟨p, chk, h⟩
      · simp [h] at ht
      · exact ⟨p, chk, by simpa using h⟩
    have hp : p.length = le16 lo hi := by simpa using ht
    have e1 : slice (a :: b :: c :: lo :: hi :: (p ++ [chk])) 5
        ((a :: b :: c :: lo :: hi :: (p ++ [chk])).length - 1) = p := by
      simp [slice]
    have e2 : byteAt (a :: b :: c :: lo :: hi :: (p ++ [chk]))
        ((a :: b :: c :: lo :: hi :: (p ++ [chk])).length - 1) = chk := by
      have : (a :: b :: c :: lo :: hi :: (p ++ [chk])).length - 1 = p.length + 5 := by simp
      rw [this]; exact byteAt_append_length p [] chk
    rw [e1, e2]
    simp [frameBytes, coveredBytes, hp, lo8_le16, hi8_le16, h0, h1]

/-! ### The codec with the numbers R66, R93 and R69 write -/

/-- The lengths of R6 add up: the payload's offset 5, the smallest and the largest frame. -/
theorem lengths_add : Config.payloadAt = 5 ∧ Config.minFrame = Config.payloadAt + 0 + Config.block.chkLen
    ∧ Config.maxFrame = Config.payloadAt + Config.maxPayload + Config.block.chkLen := by decide

theorem decodeFrame_eq (s : List Byte) :
    decodeFrame s =
      if s.length < 6 then .invalid .tooShort
      else if byteAt s 0 ≠ 0xAA ∨ byteAt s 1 ≠ 0x55 then .invalid .badHeader
      else if s.length ≠ le16 (byteAt s 3) (byteAt s 4) + 6 then .invalid .lengthMismatch
      else if xorFold (slice s 2 (5 + le16 (byteAt s 3) (byteAt s 4))) ≠ byteAt s (5 + le16 (byteAt s 3) (byteAt s 4)) then
        .invalid .badChecksum
      else .frame { command := byteAt s 2, payload := slice s 5 (5 + le16 (byteAt s 3) (byteAt s 4)) } := rfl

theorem decodeWire_eq (s : List Byte) :
    decodeWire s =
      if s.length < 6 then .error .tooShort
      else if byteAt s 0 ≠ 0xAA ∨ byteAt s 1 ≠ 0x55 then .error .badHeader
      else if s.length ≠ le16 (byteAt s 3) (byteAt s 4) + 6 then .error .lengthMismatch
      else .ok (instrOfCommand (byteAt s 2) (.recv (byteAt s (5 + le16 (byteAt s 3) (byteAt s 4))))
        (slice s 5 (5 + le16 (byteAt s 3) (byteAt s 4)))) := rfl

theorem isValidFrame_eq (s : List Byte) :
    isValidFrame s =
      (decide (6 ≤ s.length) && decide (byteAt s 0 = 0xAA) && decide (byteAt s 1 = 0x55)
        && decide (s.length = 6 + le16 (byteAt s 3) (byteAt s 4))
        && decide (byteAt s (s.length - 1) = xorFold (slice s 2 (s.length - 1)))) := rfl

/-! ### The bytes of an instruction -/

/-- What the encoder answers for a wire command (30 R60, R71). -/
theorem encodeCommand_eq_some_iff (c : Byte) (d : Link) (p f : List Byte) :
    encodeCommand c d p = some f ↔ p.length ≤ 65535 ∧ f = frameBytes c p (d.checksum c p) := by
  unfold encodeCommand
  split
  · rename_i h
    have : ¬ p.length ≤ 65535 := by simpa using h
    simp [this]
  · rename_i h
    have : p.length ≤ 65535 := by simpa using h
    simp [this, eq_comm]

/-! ### ENCODE -/

/-- What ENCODE answers (40 R92). -/
theorem encodeFrame_eq_some_iff (c : Byte) (p f : List Byte) :
    encodeFrame c p = some f ↔ p.length ≤ 65535 ∧ f = frameBytes c p (frameChecksum c p) := by
  unfold encodeFrame
  split
  · rename_i h
    have : ¬ p.length ≤ 65535 := by simpa [Config.maxPayload] using h
    simp [this]
  · rename_i h
    have : p.length ≤ 65535 := by simpa [Config.maxPayload] using h
    simp [this, eq_comm]

end Sys2Proof.Machine
end

