-- ==== Sys2Proof/Laws/Parser.lean ====
section
/-! SUPPORT. What the header search, one parse attempt and the drain loop can do, each said once. -/
namespace Sys2Proof.Machine

/-! ### The header search -/

theorem findHeader_lt {b : List Byte} {i : Nat} (h : findHeader b = some i) : i + 1 < b.length := by
  induction b generalizing i with
  | nil => simp [findHeader] at h
  | cons x t ih =>
    simp only [findHeader] at h
    split at h
    · rename_i hx
      obtain rfl : 0 = i := by simpa using h
      match t, hx.2 with
      | y :: t, _ => simp
    · obtain ⟨j, hj, rfl⟩ : ∃ j, findHeader t = some j ∧ j + 1 = i := by simpa using h
      have := ih hj
      simp only [List.length_cons]; omega

/-- Where the search stops, the header stands at the head of what is left (step 2). -/
theorem findHeader_drop {b : List Byte} {i : Nat} (h : findHeader b = some i) :
    ∃ t, b.drop i = Config.header0 :: Config.header1 :: t := by
  induction b generalizing i with
  | nil => simp [findHeader] at h
  | cons x t ih =>
    simp only [findHeader] at h
    split at h
    · rename_i hx
      obtain rfl : 0 = i := by simpa using h
      match t, hx with
      | y :: t, hx => exact ⟨t, by have := hx.2; simp at this; simp [hx.1, this]⟩
    · obtain ⟨j, hj, rfl⟩ : ∃ j, findHeader t = some j ∧ j + 1 = i := by simpa using h
      simpa using ih hj

@[simp] theorem findHeader_at_head (t : List Byte) :
    findHeader (0xAA :: 0x55 :: t) = some 0 := by
  simp [findHeader]

/-- More bytes behind a buffer that holds a header do not move the one the search takes. -/
theorem findHeader_append {b : List Byte} {i : Nat} (h : findHeader b = some i) (x : List Byte) :
    findHeader (b ++ x) = some i := by
  induction b generalizing i with
  | nil => simp [findHeader] at h
  | cons y t ih =>
    cases t with
    | nil => simp [findHeader] at h
    | cons z t =>
      rw [List.cons_append, findHeader]
      rw [findHeader] at h
      by_cases hx : y = Config.header0 ∧ (z :: t).head? = some Config.header1
      · rw [if_pos hx] at h
        rw [if_pos (by simpa using hx)]
        exact h
      · rw [if_neg hx] at h
        rw [if_neg (by simpa using hx)]
        obtain ⟨j, hj, rfl⟩ : ∃ j, findHeader (z :: t) = some j ∧ j + 1 = i := by simpa using h
        have := ih hj
        simp only [List.cons_append] at this
        simp [this]

/-! ### One attempt: everything it can do -/

/-- Steps 3 to 5 with the numbers R113 writes: the offsets 2 to 5 and `5 + length + 1`. -/
theorem parseAt_eq (skip : ResyncSkip) (t : List Byte) :
    parseAt skip t =
      if t.length < 6 then (.needMin, t)
      else if t.length < 5 + le16 (byteAt t 3) (byteAt t 4) + 1 then (.needBody, t)
      else if xorFold (slice t 2 (5 + le16 (byteAt t 3) (byteAt t 4))) = byteAt t (5 + le16 (byteAt t 3) (byteAt t 4)) then
        (.frame { command := byteAt t 2, payload := slice t 5 (5 + le16 (byteAt t 3) (byteAt t 4)) },
          bufDrop (5 + le16 (byteAt t 3) (byteAt t 4) + 1) t)
      else resync skip t := rfl

/-- Steps 3 to 5 said once (41 R116 to R119). -/
theorem parseAt_cases {skip : ResyncSkip} {t t' : List Byte} {o : ParseOutcome} (h : parseAt skip t = (o, t')) :
    (t.length < 6 ∧ o = .needMin ∧ t' = t)
    ∨ (6 ≤ t.length ∧ t.length < 6 + le16 (byteAt t 3) (byteAt t 4) ∧ o = .needBody ∧ t' = t)
    ∨ (6 + le16 (byteAt t 3) (byteAt t 4) ≤ t.length
        ∧ xorFold (slice t 2 (5 + le16 (byteAt t 3) (byteAt t 4))) = byteAt t (5 + le16 (byteAt t 3) (byteAt t 4))
        ∧ o = .frame { command := byteAt t 2, payload := slice t 5 (5 + le16 (byteAt t 3) (byteAt t 4)) }
        ∧ t' = t.drop (6 + le16 (byteAt t 3) (byteAt t 4)))
    ∨ (6 + le16 (byteAt t 3) (byteAt t 4) ≤ t.length
        ∧ xorFold (slice t 2 (5 + le16 (byteAt t 3) (byteAt t 4))) ≠ byteAt t (5 + le16 (byteAt t 3) (byteAt t 4))
        ∧ o = .corrupt ∧ t' = t.drop skip.bytes) := by
  simp only [parseAt_eq, bufDrop, resync] at h
  have e : 5 + le16 (byteAt t 3) (byteAt t 4) + 1 = 6 + le16 (byteAt t 3) (byteAt t 4) := by omega
  rw [e] at h
  by_cases h1 : t.length < 6
  · rw [if_pos h1] at h
    cases h; exact .inl ⟨h1, rfl, rfl⟩
  · rw [if_neg h1] at h
    by_cases h2 : t.length < 6 + le16 (byteAt t 3) (byteAt t 4)
    · rw [if_pos h2] at h
      cases h; exact .inr (.inl ⟨by omega, h2, rfl, rfl⟩)
    · rw [if_neg h2] at h
      by_cases h3 : xorFold (slice t 2 (5 + le16 (byteAt t 3) (byteAt t 4)))
          = byteAt t (5 + le16 (byteAt t 3) (byteAt t 4))
      · rw [if_pos h3] at h
        cases h; exact .inr (.inr (.inl ⟨by omega, h3, rfl, rfl⟩))
      · rw [if_neg h3] at h
        cases h; exact .inr (.inr (.inr ⟨by omega, h3, rfl, rfl⟩))

/-- One whole attempt said once (41 R113): no header and the last byte kept, or steps 3 to 5 at the header found. -/
theorem parseBuf_cases {skip : ResyncSkip} {b b' : List Byte} {o : ParseOutcome} (h : parseBuf skip b = (o, b')) :
    (findHeader b = none ∧ o = .noHeader ∧ b' = b.drop (b.length - 1))
    ∨ ∃ i, findHeader b = some i ∧ parseAt skip (b.drop i) = (o, b') := by
  simp only [parseBuf] at h
  split at h
  · rename_i hf
    cases h
    refine .inl ⟨hf, rfl, ?_⟩
    simp only [keepLast, bufDrop]
    split
    · rfl
    · rw [show b.length - 1 = 0 by omega]; rfl
  · rename_i i hf
    exact .inr ⟨i, hf, h⟩

/-- With a header the attempt is steps 3 to 5 on what step 2 leaves. -/
theorem parseBuf_of_header {skip : ResyncSkip} {b : List Byte} {i : Nat} (h : findHeader b = some i) :
    parseBuf skip b = parseAt skip (b.drop i) := by
  simp [parseBuf, h, bufDrop]

/-- Without one it keeps the last byte. -/
theorem parseBuf_of_none {skip : ResyncSkip} {b : List Byte} (h : findHeader b = none) :
    parseBuf skip b = (.noHeader, b.drop (b.length - 1)) := by
  rcases parseBuf_cases (skip := skip) (b := b) (o := (parseBuf skip b).1) (b' := (parseBuf skip b).2) rfl with
    ⟨-, h1, h2⟩ | ⟨i, hi, -⟩
  · exact Prod.ext h1 h2
  · simp [h] at hi

theorem parseAt_of_short {skip : ResyncSkip} {t : List Byte} (h : t.length < 6) :
    parseAt skip t = (.needMin, t) := by
  simp only [parseAt_eq]; rw [if_pos h]

theorem parseAt_of_incomplete {skip : ResyncSkip} {t : List Byte} (h : 6 ≤ t.length)
    (h2 : t.length < 6 + le16 (byteAt t 3) (byteAt t 4)) : parseAt skip t = (.needBody, t) := by
  simp only [parseAt_eq]; rw [if_neg (Nat.not_lt.2 h), if_pos (by omega)]

theorem parseAt_of_match {skip : ResyncSkip} {t : List Byte} (h : 6 + le16 (byteAt t 3) (byteAt t 4) ≤ t.length)
    (hx : xorFold (slice t 2 (5 + le16 (byteAt t 3) (byteAt t 4))) = byteAt t (5 + le16 (byteAt t 3) (byteAt t 4))) :
    parseAt skip t =
      (.frame { command := byteAt t 2, payload := slice t 5 (5 + le16 (byteAt t 3) (byteAt t 4)) },
        t.drop (6 + le16 (byteAt t 3) (byteAt t 4))) := by
  have e : 5 + le16 (byteAt t 3) (byteAt t 4) + 1 = 6 + le16 (byteAt t 3) (byteAt t 4) := by omega
  have h6 : 6 ≤ t.length := by omega
  simp only [parseAt_eq]; rw [if_neg (Nat.not_lt.2 h6), if_neg (by omega), if_pos hx, e]; rfl

theorem parseAt_of_mismatch {skip : ResyncSkip} {t : List Byte} (h : 6 + le16 (byteAt t 3) (byteAt t 4) ≤ t.length)
    (hx : xorFold (slice t 2 (5 + le16 (byteAt t 3) (byteAt t 4))) ≠ byteAt t (5 + le16 (byteAt t 3) (byteAt t 4))) :
    parseAt skip t = (.corrupt, t.drop skip.bytes) := by
  have h6 : 6 ≤ t.length := by omega
  simp only [parseAt_eq]; rw [if_neg (Nat.not_lt.2 h6), if_neg (by omega), if_neg hx]; rfl

/-- No read of steps 3 to 5 leaves the buffer: past step 3 the length bytes are there, past step 4 all of the candidate
(41 R123). -/
theorem parseAt_reads_in_bounds {skip : ResyncSkip} {t t' : List Byte} {o : ParseOutcome}
    (h : parseAt skip t = (o, t')) (ho : o ≠ .needMin) :
    4 < t.length ∧ (o ≠ .needBody → 5 + le16 (byteAt t 3) (byteAt t 4) < t.length) := by
  rcases parseAt_cases h with ⟨-, rfl, -⟩ | ⟨h6, -, rfl, -⟩ | ⟨hl, -, rfl, -⟩ | ⟨hl, -, rfl, -⟩
  · exact absurd rfl ho
  · exact ⟨by omega, fun h => absurd rfl h⟩
  · exact ⟨by omega, fun _ => by omega⟩
  · exact ⟨by omega, fun _ => by omega⟩

/-- An attempt only drops at the head. -/
theorem parseBuf_suffix {skip : ResyncSkip} {b b' : List Byte} {o : ParseOutcome} (h : parseBuf skip b = (o, b')) :
    b' <:+ b := by
  rcases parseBuf_cases h with ⟨-, -, rfl⟩ | ⟨i, -, h⟩
  · exact List.drop_suffix _ _
  · have hs : b.drop i <:+ b := List.drop_suffix _ _
    rcases parseAt_cases h with ⟨-, -, rfl⟩ | ⟨-, -, -, rfl⟩ | ⟨-, -, -, rfl⟩ | ⟨-, -, -, rfl⟩
    · exact hs
    · exact hs
    · exact (List.drop_suffix _ _).trans hs
    · exact (List.drop_suffix _ _).trans hs

theorem skip_bytes_pos (skip : ResyncSkip) : 1 ≤ skip.bytes := by cases skip <;> decide

theorem skip_bytes_le (skip : ResyncSkip) : skip.bytes ≤ 2 := by cases skip <;> decide

/-- An attempt that does not wait shortens the buffer by the skip at least (41 R121). -/
theorem parseBuf_shorter {skip : ResyncSkip} {b b' : List Byte} {o : ParseOutcome} (h : parseBuf skip b = (o, b'))
    (ho : o.isWait = false) : b'.length + skip.bytes ≤ b.length := by
  have hp := skip_bytes_pos skip
  have hl := skip_bytes_le skip
  rcases parseBuf_cases h with ⟨-, rfl, -⟩ | ⟨i, hi, h⟩
  · simp [ParseOutcome.isWait] at ho
  · have := findHeader_lt hi
    rcases parseAt_cases h with ⟨-, rfl, -⟩ | ⟨-, -, rfl, -⟩ | ⟨ht, -, -, rfl⟩ | ⟨ht, -, -, rfl⟩
    · simp [ParseOutcome.isWait] at ho
    · simp [ParseOutcome.isWait] at ho
    · simp only [List.length_drop] at ht ⊢; omega
    · simp only [List.length_drop] at ht ⊢; omega

/-! ### The drain loop -/

/-- What a turn of the loop answers, from the outcome of its attempt, the buffer after it, and what the rest of the loop
would give (41 R120). -/
def drainTurn (p : Params) (rest : List Frame × List Byte) (b' : List Byte) : ParseOutcome → List Frame × List Byte
  | .frame f => (f :: rest.1, rest.2)
  | .corrupt => if p.drainPolicy = .quiescent then rest else ([], b')
  | .noHeader => ([], b')
  | .needMin => ([], b')
  | .needBody => ([], b')

/-- One turn of the loop, with the fuel it takes. -/
theorem drainFrom_succ (p : Params) (fuel : Nat) {b b' : List Byte} {o : ParseOutcome}
    (h : parseBuf p.resyncSkip b = (o, b')) :
    drainFrom p (fuel + 1) b = drainTurn p (drainFrom p fuel b') b' o := by
  simp only [drainFrom, h]
  cases o <;> cases hp : p.drainPolicy <;> simp [drainTurn, hp]

/-- A loop that goes on goes on with a shorter buffer, so fuel above the length changes nothing. -/
theorem drainFrom_fuel (p : Params) (b : List Byte) (m n : Nat) (hm : b.length < m) (hn : b.length < n) :
    drainFrom p m b = drainFrom p n b := by
  induction m generalizing b n with
  | zero => omega
  | succ m ih =>
    obtain ⟨n, rfl⟩ : ∃ k, n = k + 1 := ⟨n - 1, by omega⟩
    obtain ⟨o, b', h⟩ : ∃ o b', parseBuf p.resyncSkip b = (o, b') := ⟨_, _, rfl⟩
    have hp := skip_bytes_pos p.resyncSkip
    rw [drainFrom_succ p m h, drainFrom_succ p n h]
    cases o with
    | frame f =>
      have := parseBuf_shorter h rfl
      rw [ih b' n (by omega) (by omega)]
    | corrupt =>
      have := parseBuf_shorter h rfl
      rw [ih b' n (by omega) (by omega)]
    | noHeader => rfl
    | needMin => rfl
    | needBody => rfl

/-! ### Runs of APPEND and DRAIN -/

/-- Feeding chunks one after the other, each an APPEND and a DRAIN (30 R77 `FEED`): all frames, and the last buffer. -/
def feedChunks (p : Params) : List Byte → List (List Byte) → List Frame × List Byte
  | b, [] => ([], b)
  | b, c :: cs =>
    let r := drainBuf p (bufAppend b c)
    let rest := feedChunks p r.2 cs
    (r.1 ++ rest.1, rest.2)

end Sys2Proof.Machine
end

