-- ==== Sys2Proof/Laws/State.lean ====
section
/-! SUPPORT. One lemma per field per update of State, true by rfl. -/
namespace Sys2Proof.Machine

@[simp] theorem State.setBuf_params (s : State) (v : List Byte) : (s.setBuf v).params = s.params := rfl
@[simp] theorem State.setBuf_buf (s : State) (v : List Byte) : (s.setBuf v).buf = v := rfl
@[simp] theorem State.setBuf_results (s : State) (v : List Byte) : (s.setBuf v).results = s.results := rfl
@[simp] theorem State.setBuf_wireOut (s : State) (v : List Byte) : (s.setBuf v).wireOut = s.wireOut := rfl
@[simp] theorem State.setBuf_accum (s : State) (v : List Byte) : (s.setBuf v).accum = s.accum := rfl
@[simp] theorem State.setBuf_observations (s : State) (v : List Byte) : (s.setBuf v).observations = s.observations := rfl
@[simp] theorem State.setBuf_session (s : State) (v : List Byte) : (s.setBuf v).session = s.session := rfl
@[simp] theorem State.setBuf_running (s : State) (v : List Byte) : (s.setBuf v).running = s.running := rfl
@[simp] theorem State.setBuf_taskAlive (s : State) (v : List Byte) : (s.setBuf v).taskAlive = s.taskAlive := rfl
@[simp] theorem State.setBuf_failed (s : State) (v : List Byte) : (s.setBuf v).failed = s.failed := rfl
@[simp] theorem State.setBuf_taskFailed (s : State) (v : List Byte) : (s.setBuf v).taskFailed = s.taskFailed := rfl
@[simp] theorem State.setBuf_script (s : State) (v : List Byte) : (s.setBuf v).script = s.script := rfl

@[simp] theorem State.pushResult_params (s : State) (v : Result) : (s.pushResult v).params = s.params := rfl
@[simp] theorem State.pushResult_buf (s : State) (v : Result) : (s.pushResult v).buf = s.buf := rfl
@[simp] theorem State.pushResult_results (s : State) (v : Result) : (s.pushResult v).results = s.results ++ [v] := rfl
@[simp] theorem State.pushResult_wireOut (s : State) (v : Result) : (s.pushResult v).wireOut = s.wireOut := rfl
@[simp] theorem State.pushResult_accum (s : State) (v : Result) : (s.pushResult v).accum = s.accum := rfl
@[simp] theorem State.pushResult_observations (s : State) (v : Result) : (s.pushResult v).observations = s.observations := rfl
@[simp] theorem State.pushResult_session (s : State) (v : Result) : (s.pushResult v).session = s.session := rfl
@[simp] theorem State.pushResult_running (s : State) (v : Result) : (s.pushResult v).running = s.running := rfl
@[simp] theorem State.pushResult_taskAlive (s : State) (v : Result) : (s.pushResult v).taskAlive = s.taskAlive := rfl
@[simp] theorem State.pushResult_failed (s : State) (v : Result) : (s.pushResult v).failed = s.failed := rfl
@[simp] theorem State.pushResult_taskFailed (s : State) (v : Result) : (s.pushResult v).taskFailed = s.taskFailed := rfl
@[simp] theorem State.pushResult_script (s : State) (v : Result) : (s.pushResult v).script = s.script := rfl

@[simp] theorem State.pushWire_params (s : State) (v : List Byte) : (s.pushWire v).params = s.params := rfl
@[simp] theorem State.pushWire_buf (s : State) (v : List Byte) : (s.pushWire v).buf = s.buf := rfl
@[simp] theorem State.pushWire_results (s : State) (v : List Byte) : (s.pushWire v).results = s.results := rfl
@[simp] theorem State.pushWire_wireOut (s : State) (v : List Byte) : (s.pushWire v).wireOut = s.wireOut ++ v := rfl
@[simp] theorem State.pushWire_accum (s : State) (v : List Byte) : (s.pushWire v).accum = s.accum := rfl
@[simp] theorem State.pushWire_observations (s : State) (v : List Byte) : (s.pushWire v).observations = s.observations := rfl
@[simp] theorem State.pushWire_session (s : State) (v : List Byte) : (s.pushWire v).session = s.session := rfl
@[simp] theorem State.pushWire_running (s : State) (v : List Byte) : (s.pushWire v).running = s.running := rfl
@[simp] theorem State.pushWire_taskAlive (s : State) (v : List Byte) : (s.pushWire v).taskAlive = s.taskAlive := rfl
@[simp] theorem State.pushWire_failed (s : State) (v : List Byte) : (s.pushWire v).failed = s.failed := rfl
@[simp] theorem State.pushWire_taskFailed (s : State) (v : List Byte) : (s.pushWire v).taskFailed = s.taskFailed := rfl
@[simp] theorem State.pushWire_script (s : State) (v : List Byte) : (s.pushWire v).script = s.script := rfl

@[simp] theorem State.setAccum_params (s : State) (v : List Byte) : (s.setAccum v).params = s.params := rfl
@[simp] theorem State.setAccum_buf (s : State) (v : List Byte) : (s.setAccum v).buf = s.buf := rfl
@[simp] theorem State.setAccum_results (s : State) (v : List Byte) : (s.setAccum v).results = s.results := rfl
@[simp] theorem State.setAccum_wireOut (s : State) (v : List Byte) : (s.setAccum v).wireOut = s.wireOut := rfl
@[simp] theorem State.setAccum_accum (s : State) (v : List Byte) : (s.setAccum v).accum = v := rfl
@[simp] theorem State.setAccum_observations (s : State) (v : List Byte) : (s.setAccum v).observations = s.observations := rfl
@[simp] theorem State.setAccum_session (s : State) (v : List Byte) : (s.setAccum v).session = s.session := rfl
@[simp] theorem State.setAccum_running (s : State) (v : List Byte) : (s.setAccum v).running = s.running := rfl
@[simp] theorem State.setAccum_taskAlive (s : State) (v : List Byte) : (s.setAccum v).taskAlive = s.taskAlive := rfl
@[simp] theorem State.setAccum_failed (s : State) (v : List Byte) : (s.setAccum v).failed = s.failed := rfl
@[simp] theorem State.setAccum_taskFailed (s : State) (v : List Byte) : (s.setAccum v).taskFailed = s.taskFailed := rfl
@[simp] theorem State.setAccum_script (s : State) (v : List Byte) : (s.setAccum v).script = s.script := rfl

@[simp] theorem State.observe_params (s : State) (v : Observation) : (s.observe v).params = s.params := rfl
@[simp] theorem State.observe_buf (s : State) (v : Observation) : (s.observe v).buf = s.buf := rfl
@[simp] theorem State.observe_results (s : State) (v : Observation) : (s.observe v).results = s.results := rfl
@[simp] theorem State.observe_wireOut (s : State) (v : Observation) : (s.observe v).wireOut = s.wireOut := rfl
@[simp] theorem State.observe_accum (s : State) (v : Observation) : (s.observe v).accum = s.accum := rfl
@[simp] theorem State.observe_observations (s : State) (v : Observation) : (s.observe v).observations = s.observations ++ [v] := rfl
@[simp] theorem State.observe_session (s : State) (v : Observation) : (s.observe v).session = s.session := rfl
@[simp] theorem State.observe_running (s : State) (v : Observation) : (s.observe v).running = s.running := rfl
@[simp] theorem State.observe_taskAlive (s : State) (v : Observation) : (s.observe v).taskAlive = s.taskAlive := rfl
@[simp] theorem State.observe_failed (s : State) (v : Observation) : (s.observe v).failed = s.failed := rfl
@[simp] theorem State.observe_taskFailed (s : State) (v : Observation) : (s.observe v).taskFailed = s.taskFailed := rfl
@[simp] theorem State.observe_script (s : State) (v : Observation) : (s.observe v).script = s.script := rfl

@[simp] theorem State.setSession_params (s : State) (v : Session) : (s.setSession v).params = s.params := rfl
@[simp] theorem State.setSession_buf (s : State) (v : Session) : (s.setSession v).buf = s.buf := rfl
@[simp] theorem State.setSession_results (s : State) (v : Session) : (s.setSession v).results = s.results := rfl
@[simp] theorem State.setSession_wireOut (s : State) (v : Session) : (s.setSession v).wireOut = s.wireOut := rfl
@[simp] theorem State.setSession_accum (s : State) (v : Session) : (s.setSession v).accum = s.accum := rfl
@[simp] theorem State.setSession_observations (s : State) (v : Session) : (s.setSession v).observations = s.observations := rfl
@[simp] theorem State.setSession_session (s : State) (v : Session) : (s.setSession v).session = v := rfl
@[simp] theorem State.setSession_running (s : State) (v : Session) : (s.setSession v).running = s.running := rfl
@[simp] theorem State.setSession_taskAlive (s : State) (v : Session) : (s.setSession v).taskAlive = s.taskAlive := rfl
@[simp] theorem State.setSession_failed (s : State) (v : Session) : (s.setSession v).failed = s.failed := rfl
@[simp] theorem State.setSession_taskFailed (s : State) (v : Session) : (s.setSession v).taskFailed = s.taskFailed := rfl
@[simp] theorem State.setSession_script (s : State) (v : Session) : (s.setSession v).script = s.script := rfl

@[simp] theorem State.setRunning_params (s : State) (v : Bool) : (s.setRunning v).params = s.params := rfl
@[simp] theorem State.setRunning_buf (s : State) (v : Bool) : (s.setRunning v).buf = s.buf := rfl
@[simp] theorem State.setRunning_results (s : State) (v : Bool) : (s.setRunning v).results = s.results := rfl
@[simp] theorem State.setRunning_wireOut (s : State) (v : Bool) : (s.setRunning v).wireOut = s.wireOut := rfl
@[simp] theorem State.setRunning_accum (s : State) (v : Bool) : (s.setRunning v).accum = s.accum := rfl
@[simp] theorem State.setRunning_observations (s : State) (v : Bool) : (s.setRunning v).observations = s.observations := rfl
@[simp] theorem State.setRunning_session (s : State) (v : Bool) : (s.setRunning v).session = s.session := rfl
@[simp] theorem State.setRunning_running (s : State) (v : Bool) : (s.setRunning v).running = v := rfl
@[simp] theorem State.setRunning_taskAlive (s : State) (v : Bool) : (s.setRunning v).taskAlive = s.taskAlive := rfl
@[simp] theorem State.setRunning_failed (s : State) (v : Bool) : (s.setRunning v).failed = s.failed := rfl
@[simp] theorem State.setRunning_taskFailed (s : State) (v : Bool) : (s.setRunning v).taskFailed = s.taskFailed := rfl
@[simp] theorem State.setRunning_script (s : State) (v : Bool) : (s.setRunning v).script = s.script := rfl

@[simp] theorem State.setTask_params (s : State) (v : Bool) : (s.setTask v).params = s.params := rfl
@[simp] theorem State.setTask_buf (s : State) (v : Bool) : (s.setTask v).buf = s.buf := rfl
@[simp] theorem State.setTask_results (s : State) (v : Bool) : (s.setTask v).results = s.results := rfl
@[simp] theorem State.setTask_wireOut (s : State) (v : Bool) : (s.setTask v).wireOut = s.wireOut := rfl
@[simp] theorem State.setTask_accum (s : State) (v : Bool) : (s.setTask v).accum = s.accum := rfl
@[simp] theorem State.setTask_observations (s : State) (v : Bool) : (s.setTask v).observations = s.observations := rfl
@[simp] theorem State.setTask_session (s : State) (v : Bool) : (s.setTask v).session = s.session := rfl
@[simp] theorem State.setTask_running (s : State) (v : Bool) : (s.setTask v).running = s.running := rfl
@[simp] theorem State.setTask_taskAlive (s : State) (v : Bool) : (s.setTask v).taskAlive = v := rfl
@[simp] theorem State.setTask_failed (s : State) (v : Bool) : (s.setTask v).failed = s.failed := rfl
@[simp] theorem State.setTask_taskFailed (s : State) (v : Bool) : (s.setTask v).taskFailed = s.taskFailed := rfl
@[simp] theorem State.setTask_script (s : State) (v : Bool) : (s.setTask v).script = s.script := rfl

@[simp] theorem State.setFailed_params (s : State) (v : Bool) : (s.setFailed v).params = s.params := rfl
@[simp] theorem State.setFailed_buf (s : State) (v : Bool) : (s.setFailed v).buf = s.buf := rfl
@[simp] theorem State.setFailed_results (s : State) (v : Bool) : (s.setFailed v).results = s.results := rfl
@[simp] theorem State.setFailed_wireOut (s : State) (v : Bool) : (s.setFailed v).wireOut = s.wireOut := rfl
@[simp] theorem State.setFailed_accum (s : State) (v : Bool) : (s.setFailed v).accum = s.accum := rfl
@[simp] theorem State.setFailed_observations (s : State) (v : Bool) : (s.setFailed v).observations = s.observations := rfl
@[simp] theorem State.setFailed_session (s : State) (v : Bool) : (s.setFailed v).session = s.session := rfl
@[simp] theorem State.setFailed_running (s : State) (v : Bool) : (s.setFailed v).running = s.running := rfl
@[simp] theorem State.setFailed_taskAlive (s : State) (v : Bool) : (s.setFailed v).taskAlive = s.taskAlive := rfl
@[simp] theorem State.setFailed_failed (s : State) (v : Bool) : (s.setFailed v).failed = v := rfl
@[simp] theorem State.setFailed_taskFailed (s : State) (v : Bool) : (s.setFailed v).taskFailed = s.taskFailed := rfl
@[simp] theorem State.setFailed_script (s : State) (v : Bool) : (s.setFailed v).script = s.script := rfl

@[simp] theorem State.setTaskFailed_params (s : State) (v : Bool) : (s.setTaskFailed v).params = s.params := rfl
@[simp] theorem State.setTaskFailed_buf (s : State) (v : Bool) : (s.setTaskFailed v).buf = s.buf := rfl
@[simp] theorem State.setTaskFailed_results (s : State) (v : Bool) : (s.setTaskFailed v).results = s.results := rfl
@[simp] theorem State.setTaskFailed_wireOut (s : State) (v : Bool) : (s.setTaskFailed v).wireOut = s.wireOut := rfl
@[simp] theorem State.setTaskFailed_accum (s : State) (v : Bool) : (s.setTaskFailed v).accum = s.accum := rfl
@[simp] theorem State.setTaskFailed_observations (s : State) (v : Bool) : (s.setTaskFailed v).observations = s.observations := rfl
@[simp] theorem State.setTaskFailed_session (s : State) (v : Bool) : (s.setTaskFailed v).session = s.session := rfl
@[simp] theorem State.setTaskFailed_running (s : State) (v : Bool) : (s.setTaskFailed v).running = s.running := rfl
@[simp] theorem State.setTaskFailed_taskAlive (s : State) (v : Bool) : (s.setTaskFailed v).taskAlive = s.taskAlive := rfl
@[simp] theorem State.setTaskFailed_failed (s : State) (v : Bool) : (s.setTaskFailed v).failed = s.failed := rfl
@[simp] theorem State.setTaskFailed_taskFailed (s : State) (v : Bool) : (s.setTaskFailed v).taskFailed = v := rfl
@[simp] theorem State.setTaskFailed_script (s : State) (v : Bool) : (s.setTaskFailed v).script = s.script := rfl

@[simp] theorem State.setScript_params (s : State) (v : List Event) : (s.setScript v).params = s.params := rfl
@[simp] theorem State.setScript_buf (s : State) (v : List Event) : (s.setScript v).buf = s.buf := rfl
@[simp] theorem State.setScript_results (s : State) (v : List Event) : (s.setScript v).results = s.results := rfl
@[simp] theorem State.setScript_wireOut (s : State) (v : List Event) : (s.setScript v).wireOut = s.wireOut := rfl
@[simp] theorem State.setScript_accum (s : State) (v : List Event) : (s.setScript v).accum = s.accum := rfl
@[simp] theorem State.setScript_observations (s : State) (v : List Event) : (s.setScript v).observations = s.observations := rfl
@[simp] theorem State.setScript_session (s : State) (v : List Event) : (s.setScript v).session = s.session := rfl
@[simp] theorem State.setScript_running (s : State) (v : List Event) : (s.setScript v).running = s.running := rfl
@[simp] theorem State.setScript_taskAlive (s : State) (v : List Event) : (s.setScript v).taskAlive = s.taskAlive := rfl
@[simp] theorem State.setScript_failed (s : State) (v : List Event) : (s.setScript v).failed = s.failed := rfl
@[simp] theorem State.setScript_taskFailed (s : State) (v : List Event) : (s.setScript v).taskFailed = s.taskFailed := rfl
@[simp] theorem State.setScript_script (s : State) (v : List Event) : (s.setScript v).script = v := rfl

end Sys2Proof.Machine
end

