-- ==== Sys2Proof/Laws/Ops.lean ====
section
/-! SUPPORT. What each shared operation on State can do, said once. -/
namespace Sys2Proof.Machine

/-! ### The dispatcher writes the accumulator and the observations alone -/

@[simp] theorem dispatch_params (s : State) (f : Frame) : (dispatch s f).params = s.params := by
  unfold dispatch; split <;> [rfl; (split <;> rfl)]

@[simp] theorem dispatch_buf (s : State) (f : Frame) : (dispatch s f).buf = s.buf := by
  unfold dispatch; split <;> [rfl; (split <;> rfl)]

@[simp] theorem dispatch_results (s : State) (f : Frame) : (dispatch s f).results = s.results := by
  unfold dispatch; split <;> [rfl; (split <;> rfl)]

@[simp] theorem dispatch_wireOut (s : State) (f : Frame) : (dispatch s f).wireOut = s.wireOut := by
  unfold dispatch; split <;> [rfl; (split <;> rfl)]

@[simp] theorem dispatch_session (s : State) (f : Frame) : (dispatch s f).session = s.session := by
  unfold dispatch; split <;> [rfl; (split <;> rfl)]

@[simp] theorem dispatch_running (s : State) (f : Frame) : (dispatch s f).running = s.running := by
  unfold dispatch; split <;> [rfl; (split <;> rfl)]

@[simp] theorem dispatch_taskAlive (s : State) (f : Frame) : (dispatch s f).taskAlive = s.taskAlive := by
  unfold dispatch; split <;> [rfl; (split <;> rfl)]

@[simp] theorem dispatch_failed (s : State) (f : Frame) : (dispatch s f).failed = s.failed := by
  unfold dispatch; split <;> [rfl; (split <;> rfl)]

@[simp] theorem dispatch_taskFailed (s : State) (f : Frame) : (dispatch s f).taskFailed = s.taskFailed := by
  unfold dispatch; split <;> [rfl; (split <;> rfl)]

@[simp] theorem dispatch_script (s : State) (f : Frame) : (dispatch s f).script = s.script := by
  unfold dispatch; split <;> [rfl; (split <;> rfl)]

@[simp] theorem dispatchAll_params (s : State) (fs : List Frame) : (dispatchAll s fs).params = s.params := by
  induction fs generalizing s with
  | nil => rfl
  | cons f fs ih => exact (ih (dispatch s f)).trans (dispatch_params s f)

@[simp] theorem dispatchAll_buf (s : State) (fs : List Frame) : (dispatchAll s fs).buf = s.buf := by
  induction fs generalizing s with
  | nil => rfl
  | cons f fs ih => exact (ih (dispatch s f)).trans (dispatch_buf s f)

@[simp] theorem dispatchAll_results (s : State) (fs : List Frame) : (dispatchAll s fs).results = s.results := by
  induction fs generalizing s with
  | nil => rfl
  | cons f fs ih => exact (ih (dispatch s f)).trans (dispatch_results s f)

@[simp] theorem dispatchAll_wireOut (s : State) (fs : List Frame) : (dispatchAll s fs).wireOut = s.wireOut := by
  induction fs generalizing s with
  | nil => rfl
  | cons f fs ih => exact (ih (dispatch s f)).trans (dispatch_wireOut s f)

@[simp] theorem dispatchAll_session (s : State) (fs : List Frame) : (dispatchAll s fs).session = s.session := by
  induction fs generalizing s with
  | nil => rfl
  | cons f fs ih => exact (ih (dispatch s f)).trans (dispatch_session s f)

@[simp] theorem dispatchAll_running (s : State) (fs : List Frame) : (dispatchAll s fs).running = s.running := by
  induction fs generalizing s with
  | nil => rfl
  | cons f fs ih => exact (ih (dispatch s f)).trans (dispatch_running s f)

@[simp] theorem dispatchAll_taskAlive (s : State) (fs : List Frame) : (dispatchAll s fs).taskAlive = s.taskAlive := by
  induction fs generalizing s with
  | nil => rfl
  | cons f fs ih => exact (ih (dispatch s f)).trans (dispatch_taskAlive s f)

@[simp] theorem dispatchAll_failed (s : State) (fs : List Frame) : (dispatchAll s fs).failed = s.failed := by
  induction fs generalizing s with
  | nil => rfl
  | cons f fs ih => exact (ih (dispatch s f)).trans (dispatch_failed s f)

@[simp] theorem dispatchAll_taskFailed (s : State) (fs : List Frame) : (dispatchAll s fs).taskFailed = s.taskFailed := by
  induction fs generalizing s with
  | nil => rfl
  | cons f fs ih => exact (ih (dispatch s f)).trans (dispatch_taskFailed s f)

@[simp] theorem dispatchAll_script (s : State) (fs : List Frame) : (dispatchAll s fs).script = s.script := by
  induction fs generalizing s with
  | nil => rfl
  | cons f fs ih => exact (ih (dispatch s f)).trans (dispatch_script s f)

/-- Dispatching only adds at the end of the accumulator and of the observations. -/
theorem dispatchAll_grows (s : State) (fs : List Frame) :
    s.accum <+: (dispatchAll s fs).accum ∧ s.observations <+: (dispatchAll s fs).observations := by
  induction fs generalizing s with
  | nil => exact ⟨List.prefix_rfl, List.prefix_rfl⟩
  | cons f fs ih =>
    have h : s.accum <+: (dispatch s f).accum ∧ s.observations <+: (dispatch s f).observations := by
      unfold dispatch
      split
      · exact ⟨List.prefix_append _ _, List.prefix_append _ _⟩
      · split
        · exact ⟨List.prefix_rfl, List.prefix_append _ _⟩
        · exact ⟨List.prefix_rfl, List.prefix_append _ _⟩
    exact ⟨h.1.trans (ih _).1, h.2.trans (ih _).2⟩

/-! ### Sequencing -/

@[simp] theorem andThen_next (s : State) (f : State → Host.Outcome State Fault Refusal) :
    andThen (.next s) f = f s := rfl

theorem andThen_eq_next {o : Host.Outcome State Fault Refusal} {f : State → Host.Outcome State Fault Refusal}
    {t : State} : andThen o f = .next t ↔ ∃ u, o = .next u ∧ f u = .next t := by
  cases o <;> simp [andThen]

/-! ### The operations on a state -/

/-- If APPEND answers a next state, only `buf` has changed, by the chunk at its tail. -/
theorem appendChunk_eq_next {c : List Byte} {s t : State} (h : appendChunk c s = .next t) :
    t = s.setBuf (s.buf ++ c) := by
  unfold appendChunk at h
  split at h
  · cases h; rfl
  · split at h
    · cases h
    · cases h; rfl

/-- APPEND faults only over a finite capacity, with both lengths. -/
theorem appendChunk_eq_fault {c : List Byte} {s : State} {r : Fault} (h : appendChunk c s = .fault r) :
    ∃ cap, s.params.bufCap = some cap ∧ cap < s.buf.length + c.length
      ∧ r = .bufferOverflow s.buf.length c.length := by
  unfold appendChunk at h
  split at h
  · cases h
  · rename_i cap hc
    split at h
    · cases h; exact ⟨cap, hc, by omega, rfl⟩
    · cases h

/-- APPEND is never refused. -/
theorem appendChunk_ne_refused (c : List Byte) (s : State) (r : Refusal) : appendChunk c s ≠ .refused r := by
  unfold appendChunk
  split
  · simp
  · split <;> simp

/-- If FEED answers a next state, it is the drain of the appended state. -/
theorem feed_eq_next {c : List Byte} {s t : State} (h : feed c s = .next t) :
    t = drainAll (s.setBuf (s.buf ++ c)) := by
  obtain ⟨u, hu, hd⟩ := andThen_eq_next.1 h
  obtain rfl := appendChunk_eq_next hu
  cases hd; rfl

/-- If SEND answers a next state, the payload fits and only the transport has received anything. -/
theorem sendCommand_eq_next {c : Byte} {p : List Byte} {s t : State} (h : sendCommand c p s = .next t) :
    p.length ≤ 65535 ∧ t = s.pushWire (frameBytes c p (frameChecksum c p)) := by
  unfold sendCommand at h
  split at h
  · cases h
  · rename_i f hf
    obtain ⟨hp, rfl⟩ := (encodeFrame_eq_some_iff c p f).1 hf
    cases h; exact ⟨hp, rfl⟩

/-- If receiving a command answers a next state, the payload fits and its frame has been fed. -/
theorem recvCommand_eq_next {c chk : Byte} {p : List Byte} {s t : State} (h : recvCommand c chk p s = .next t) :
    p.length ≤ 65535 ∧ t = drainAll (s.setBuf (s.buf ++ frameBytes c p chk)) := by
  unfold recvCommand at h
  split at h
  · cases h
  · rename_i hp
    exact ⟨Nat.le_of_not_lt hp, feed_eq_next h⟩

theorem parseOnce_buf (s : State) : (parseOnce s).buf = (parseBuf s.params.resyncSkip s.buf).2 := by
  simp [parseOnce]

theorem drainAll_buf (s : State) : (drainAll s).buf = (drainBuf s.params s.buf).2 := by
  simp [drainAll]

theorem parseOnce_results (s : State) :
    (parseOnce s).results = s.results ++ [.parsed (parseBuf s.params.resyncSkip s.buf).1] := by
  simp [parseOnce]

theorem drainAll_results (s : State) :
    (drainAll s).results = s.results ++ [.drained (drainBuf s.params s.buf).1] := by
  simp [drainAll]

/-! ### The session -/

theorem readerLoops_eq_true_iff (s : State) : readerLoops s = true ↔ s.running = true ∧ s.taskAlive = true := by
  simp [readerLoops]

end Sys2Proof.Machine
end

