-- ==== Sys2Proof/Laws/Memory.lean ====
section
/-! SUPPORT. The Parse Buffer as memory: its cells are always in canonical form, a read gives what was written, and an
append or a drop leaves every other byte alone. -/
namespace Sys2Proof.Machine

/-- Cells numbered upward from any offset are in canonical form. -/
theorem cellsFrom_wf (off : Nat) (b : List Byte) : Memory.wf (cellsFrom off b) = true := by
  induction b generalizing off with
  | nil => rfl
  | cons x t ih =>
    cases t with
    | nil => rfl
    | cons y t => simpa [cellsFrom, Memory.wf] using ih (off + 1)

/-- Whatever operation wrote the buffer, its cells are in canonical form; so are those after reset. -/
theorem cells_wf (b : List Byte) : Memory.wf (cells b) = true := cellsFrom_wf 0 b

theorem reset_cells_wf : Memory.wf (cells State.reset.buf) = true := cells_wf _

/-- Equal cells are equal buffers, so the canonical form identifies the memory. -/
theorem cellsFrom_inj (off : Nat) {b c : List Byte} (h : cellsFrom off b = cellsFrom off c) : b = c := by
  induction b generalizing off c with
  | nil =>
    cases c with
    | nil => rfl
    | cons y u => cases h
  | cons x t ih =>
    cases c with
    | nil => cases h
    | cons y u =>
      simp only [cellsFrom, List.cons.injEq, Prod.mk.injEq, true_and] at h
      rw [h.1, ih (off + 1) h.2]

/-- An append leaves every byte that was there. -/
theorem readByte_append_old (b v : List Byte) (off : Nat) (h : off < b.length) :
    readByte (bufAppend b v) off = readByte b off := by
  simp [readByte, bufAppend, List.getElem?_append_left h]

/-- An append puts the chunk behind what was there. -/
theorem readByte_append_new (b v : List Byte) (off : Nat) :
    readByte (bufAppend b v) (b.length + off) = readByte v off := by
  simp only [readByte, bufAppend]
  rw [List.getElem?_append_right (Nat.le_add_right _ _), Nat.add_sub_cancel_left]

/-- A drop moves every kept byte down by the count (10 R27). -/
theorem readByte_drop (n : Nat) (b : List Byte) (off : Nat) : readByte (bufDrop n b) off = readByte b (n + off) := by
  simp [readByte, bufDrop]

end Sys2Proof.Machine
end

