-- ==== Sys2Proof/Laws/PerInstr.lean ====
section
/-! SUPPORT. The family WireLayout: every instruction that has bytes has the layout of one frame (30 R60): the header at
the front and six bytes more than its payload; the seven operations have none (30 R78). One lemma per constructor. -/
namespace Sys2Proof.Laws.WireLayout

open Sys2Proof.Machine

/-- The layout of the bytes an instruction has. -/
def Statement (i : Instr) : Prop :=
  ∀ bytes, encode i = some bytes →
    bytes.length = (i.payload).length + 6 ∧ bytes.take 2 = [Config.header0, Config.header1]

theorem frame_layout (c : Byte) (d : Link) (p bytes : List Byte) (h : encodeCommand c d p = some bytes) :
    bytes.length = p.length + 6 ∧ bytes.take 2 = [Config.header0, Config.header1] := by
  obtain ⟨-, rfl⟩ := (encodeCommand_eq_some_iff c d p bytes).1 h
  exact ⟨frameBytes_length c p _, rfl⟩

theorem startRecord (d : Link) (p : List Byte) : Statement (.startRecord d p) :=
  fun bytes h => frame_layout 0x01 d p bytes h

theorem stopRecord (d : Link) (p : List Byte) : Statement (.stopRecord d p) :=
  fun bytes h => frame_layout 0x02 d p bytes h

theorem audioData (d : Link) (p : List Byte) : Statement (.audioData d p) :=
  fun bytes h => frame_layout 0x03 d p bytes h

theorem startPlay (d : Link) (p : List Byte) : Statement (.startPlay d p) :=
  fun bytes h => frame_layout 0x04 d p bytes h

theorem stopPlay (d : Link) (p : List Byte) : Statement (.stopPlay d p) :=
  fun bytes h => frame_layout 0x05 d p bytes h

theorem handshake (d : Link) (p : List Byte) : Statement (.handshake d p) :=
  fun bytes h => frame_layout 0x06 d p bytes h

theorem ack (d : Link) (p : List Byte) : Statement (.ack d p) :=
  fun bytes h => frame_layout 0x07 d p bytes h

theorem setFormat (d : Link) (p : List Byte) : Statement (.setFormat d p) :=
  fun bytes h => frame_layout 0x08 d p bytes h

theorem unnamedCommand (c : Byte) (d : Link) (p : List Byte) : Statement (.unnamedCommand c d p) :=
  fun bytes h => frame_layout c d p bytes h

theorem checksum (s : List Byte) : Statement (.checksum s) :=
  fun _ h => by cases h

theorem encode (c : Byte) (p : List Byte) : Statement (.encode c p) :=
  fun _ h => by cases h

theorem decode (s : List Byte) : Statement (.decode s) :=
  fun _ h => by cases h

theorem reset : Statement .reset :=
  fun _ h => by cases h

theorem append (chunk : List Byte) : Statement (.append chunk) :=
  fun _ h => by cases h

theorem parse : Statement .parse :=
  fun _ h => by cases h

theorem drain : Statement .drain :=
  fun _ h => by cases h

end Sys2Proof.Laws.WireLayout
end

