-- ==== Sys2Proof/Tests/Slice0.lean ====
section
/-! SUPPORT. Tests. Every expected result is a vector of spec/95_test_vectors.md, named in the comment above it, or read off
a rule of spec/; witnesses for the statements' hypotheses stand at the end. -/
namespace Sys2Proof.Tests

open Sys2Proof.Machine

/-- The reset machine with the given bytes in `buf`. -/
def withBuf (b : List Byte) : State := { State.reset with buf := b }

/-- The same with a finite capacity. -/
def withCap (cap : Nat) (b : List Byte) : State :=
  { State.reset with buf := b, params := { Params.hw with bufCap := some cap } }

/-- The same with the literal loop of `first_no_frame`. -/
def firstNoFrame (b : List Byte) : State :=
  { State.reset with buf := b, params := { Params.hw with drainPolicy := .firstNoFrame } }

def nextOf (o : Host.Outcome State Fault Refusal) : Option State :=
  match o with
  | .next s => some s
  | .fault _ => none
  | .refused _ => none

def refusalOf (o : Host.Outcome State Fault Refusal) : Option Refusal :=
  match o with
  | .next _ => none
  | .fault _ => none
  | .refused r => some r

def decoded (s : List Byte) : Option Instr :=
  match decodeWire s with
  | .ok i => some i
  | .error _ => none

def bufAfter (i : Instr) (s : State) : Option (List Byte) := (nextOf (exec i s)).map State.buf
def resultsAfter (i : Instr) (s : State) : Option (List Result) := (nextOf (exec i s)).map State.results
def wireAfter (i : Instr) (s : State) : Option (List Byte) := (nextOf (exec i s)).map State.wireOut
def seenAfter (i : Instr) (s : State) : Option (List Observation) := (nextOf (exec i s)).map State.observations

/-! ### Well-formedness refuses -/

-- 30 R71: 65536 payload bytes have no encoding.
theorem test_oversize_ill_formed : (Instr.audioData .send (List.replicate 65536 0)).wellFormed = false := by
  rw [Instr.wellFormed, payloadFits, List.length_replicate]
  decide

-- 30 R70: 0x08 is named, so UNNAMED_COMMAND does not carry it; 0x00 and 0x09 it does.
theorem test_unnamed_ill_formed : (Instr.unnamedCommand 0x08 .send []).wellFormed = false := by decide
theorem test_unnamed_well_formed :
    (Instr.unnamedCommand 0x00 .send []).wellFormed = true ∧ (Instr.unnamedCommand 0x09 .send []).wellFormed = true := by
  decide

-- 00 R6: a finite capacity holds at least the largest frame, 65541 bytes.
theorem test_params_wf : Params.hw.wf = true ∧ { Params.hw with bufCap := some 65541 }.wf = true
    ∧ { Params.hw with bufCap := some 65540 }.wf = false := by decide

/-! ### Decoding: words written out from 30 R60 and 42 R141 to R149 -/

-- EN1, EN2, EN4, EN5, EN6, EN8: bytes 0, 1 the header, 2 the command, 3, 4 the length 0, 5 the checksum.
theorem test_decode_startRecord : decoded [0xAA, 0x55, 0x01, 0x00, 0x00, 0x01] = some (.startRecord (.recv 0x01) []) := by
  decide
theorem test_decode_stopRecord : decoded [0xAA, 0x55, 0x02, 0x00, 0x00, 0x02] = some (.stopRecord (.recv 0x02) []) := by
  decide
theorem test_decode_startPlay : decoded [0xAA, 0x55, 0x04, 0x00, 0x00, 0x04] = some (.startPlay (.recv 0x04) []) := by
  decide
theorem test_decode_stopPlay : decoded [0xAA, 0x55, 0x05, 0x00, 0x00, 0x05] = some (.stopPlay (.recv 0x05) []) := by
  decide
theorem test_decode_handshake : decoded [0xAA, 0x55, 0x06, 0x00, 0x00, 0x06] = some (.handshake (.recv 0x06) []) := by
  decide
-- EN3: length 02 00 is two bytes, low byte first.
theorem test_decode_audioData :
    decoded [0xAA, 0x55, 0x03, 0x02, 0x00, 0x10, 0x20, 0x31] = some (.audioData (.recv 0x31) [0x10, 0x20]) := by decide
-- EN7, EN10.
theorem test_decode_ack : decoded [0xAA, 0x55, 0x07, 0x01, 0x00, 0x06, 0x00] = some (.ack (.recv 0x00) [0x06]) := by decide
theorem test_decode_setFormat : decoded [0xAA, 0x55, 0x08, 0x01, 0x00, 0x01, 0x08] = some (.setFormat (.recv 0x08) [0x01]) := by
  decide
-- EN12, EN11.
theorem test_decode_unnamed : decoded [0xAA, 0x55, 0x09, 0x00, 0x00, 0x09] = some (.unnamedCommand 0x09 (.recv 0x09) []) := by
  decide
theorem test_decode_zero : decoded [0xAA, 0x55, 0x00, 0x00, 0x00, 0x00] = some (.unnamedCommand 0x00 (.recv 0x00) []) := by
  decide
-- DE2, DE5, DE14: five bytes; header bytes swapped; length bytes swapped.
theorem test_decode_refuses :
    decoded [0xAA, 0x55, 0x06, 0x00, 0x00] = none ∧ decoded [0x55, 0xAA, 0x06, 0x00, 0x00, 0x06] = none
    ∧ decoded [0xAA, 0x55, 0x03, 0x00, 0x02, 0x10, 0x20, 0x31] = none := by decide
-- 30 R78: match AA5506, the first byte in wire order the least significant of the table's number.
theorem test_table_word : decodeTableWord 24 0x0655AA = some (.handshake (.recv 0x00) []) := by decide

/-! ### The codec -/

-- CK6, CK8.
theorem test_checksum :
    resultsAfter (.checksum [0x03, 0x02, 0x00, 0x10, 0x20]) State.reset = some [.checksum 0x31] := by decide
theorem test_checksum_each_bit :
    resultsAfter (.checksum [0x01, 0x02, 0x04, 0x08, 0x10, 0x20, 0x40, 0x80]) State.reset = some [.checksum 0xFF] := by decide
-- EN15: command and payload spell the header.
theorem test_encode : resultsAfter (.encode 0xAA [0x55]) State.reset
    = some [.encoded [0xAA, 0x55, 0xAA, 0x01, 0x00, 0x55, 0xFE]] := by decide
-- EN29: 65536 bytes are refused.
theorem test_encode_refuses :
    refusalOf (exec (.encode 0x03 (List.replicate 65536 0)) State.reset) = some (.encodeOversize 65536) := by
  rw [exec, execEncode, encodeFrame, List.length_replicate]
  rfl
-- DE17: the header is tested before length and checksum; DE11: swapped payload bytes pass.
theorem test_decode_op_order : resultsAfter (.decode [0x00, 0x00, 0x00, 0x00, 0x00, 0x00]) State.reset
    = some [.decoded (.invalid .badHeader)] := by decide
theorem test_decode_op_swapped : resultsAfter (.decode [0xAA, 0x55, 0x03, 0x02, 0x00, 0x20, 0x10, 0x31]) State.reset
    = some [.decoded (.frame { command := 0x03, payload := [0x20, 0x10] })] := by decide

/-! ### The parser -/

-- AP4, AP2.
theorem test_reset : bufAfter .reset (withBuf [0xAA, 0x55, 0x03]) = some [] := by decide
theorem test_append : bufAfter (.append [0x55, 0x06]) (withBuf [0xAA]) = some [0xAA, 0x55, 0x06] := by decide
-- 41 R111 over a finite capacity (the case of AP6, with a small number).
theorem test_append_overflow : exec (.append [0x00]) (withCap 2 [0x01, 0x02]) = .fault (.bufferOverflow 2 1) := by rfl
-- PA17, PA16: a frame between other bytes; a bad checksum drops two bytes.
theorem test_parse_frame : bufAfter .parse (withBuf [0x00, 0xAA, 0x55, 0x06, 0x00, 0x00, 0x06, 0xFF]) = some [0xFF] := by decide
theorem test_parse_corrupt : resultsAfter .parse (withBuf [0xAA, 0x55, 0x06, 0x00, 0x00, 0x07]) = some [.parsed .corrupt]
    ∧ bufAfter .parse (withBuf [0xAA, 0x55, 0x06, 0x00, 0x00, 0x07]) = some [0x06, 0x00, 0x00, 0x07] := by decide
-- DR8: a truncated frame swallows part of a handshake, fails, and the handshake is found whole; its column f.
theorem test_drain : resultsAfter .drain (withBuf [0xAA, 0x55, 0x01, 0x04, 0x00, 0xAA, 0x55, 0x06, 0x00, 0x00, 0x06])
    = some [.drained [{ command := 0x06, payload := [] }]] := by decide
theorem test_drain_first_no_frame :
    bufAfter .drain (firstNoFrame [0xAA, 0x55, 0x01, 0x04, 0x00, 0xAA, 0x55, 0x06, 0x00, 0x00, 0x06])
      = some [0x01, 0x04, 0x00, 0xAA, 0x55, 0x06, 0x00, 0x00, 0x06] := by decide
-- PA11, PA24: the header at offset 1; a length of FFFF waits and hides the handshake behind it.
theorem test_find_header : findHeader [0xAA, 0xAA, 0x55] = some 1 := by decide
theorem test_need_body : parseBuf .two [0xAA, 0x55, 0x01, 0xFF, 0xFF, 0x00, 0xAA, 0x55, 0x06, 0x00, 0x00, 0x06]
    = (.needBody, [0xAA, 0x55, 0x01, 0xFF, 0xFF, 0x00, 0xAA, 0x55, 0x06, 0x00, 0x00, 0x06]) := by decide

/-! ### The wire commands -/

-- EN1, EN2, EN3, EN4, EN5, EN6, EN7, EN9, EN13: each command sent.
theorem test_send_startRecord : wireAfter (.startRecord .send []) State.reset = some [0xAA, 0x55, 0x01, 0x00, 0x00, 0x01] := by
  decide
theorem test_send_stopRecord : wireAfter (.stopRecord .send []) State.reset = some [0xAA, 0x55, 0x02, 0x00, 0x00, 0x02] := by
  decide
theorem test_send_audioData : wireAfter (.audioData .send [0x10, 0x20]) State.reset
    = some [0xAA, 0x55, 0x03, 0x02, 0x00, 0x10, 0x20, 0x31] := by decide
theorem test_send_startPlay : wireAfter (.startPlay .send []) State.reset = some [0xAA, 0x55, 0x04, 0x00, 0x00, 0x04] := by decide
theorem test_send_stopPlay : wireAfter (.stopPlay .send []) State.reset = some [0xAA, 0x55, 0x05, 0x00, 0x00, 0x05] := by decide
theorem test_send_handshake : wireAfter (.handshake .send []) State.reset = some [0xAA, 0x55, 0x06, 0x00, 0x00, 0x06] := by decide
theorem test_send_ack : wireAfter (.ack .send [0x06]) State.reset = some [0xAA, 0x55, 0x07, 0x01, 0x00, 0x06, 0x00] := by decide
theorem test_send_setFormat : wireAfter (.setFormat .send [0x00]) State.reset = some [0xAA, 0x55, 0x08, 0x01, 0x00, 0x00, 0x09] := by
  decide
theorem test_send_unnamed : wireAfter (.unnamedCommand 0xFF .send [0xAA, 0x55]) State.reset
    = some [0xAA, 0x55, 0xFF, 0x02, 0x00, 0xAA, 0x55, 0x02] := by decide
-- 42 R150 on S2's frame: two bytes accumulated, the count reported.
theorem test_recv_audioData :
    (nextOf (exec (.audioData (.recv 0x31) [0x10, 0x20]) { State.reset with accum := [0x01] })).map
        (fun s => (s.buf, s.accum, s.observations)) = some ([], [0x01, 0x10, 0x20], [.progress 3]) := by decide
-- 42 R150 on EN7 and EN8: the acknowledged command, if its payload has a first byte.
theorem test_recv_ack : seenAfter (.ack (.recv 0x00) [0x06]) State.reset = some [.acknowledged (some 0x06)]
    ∧ seenAfter (.ack (.recv 0x07) []) State.reset = some [.acknowledged none] := by decide
-- 42 R150, third arm: a named command the dispatcher does not know.
theorem test_recv_handshake : seenAfter (.handshake (.recv 0x06) []) State.reset = some [.notRecognized 0x06] := by decide
-- PA16 with step 1 after it: a bad checksum is never dispatched; the last byte is kept.
theorem test_recv_damaged : (nextOf (exec (.startRecord (.recv 0x00) []) State.reset)).map
    (fun s => (s.buf, s.observations)) = some ([0x00], []) := by decide

-- 30 R71: 65536 payload bytes have no encoding, sent or received.
theorem test_oversize_no_bytes : encode (.handshake .send (List.replicate 65536 0)) = none
    ∧ encode (.handshake (.recv 0x06) (List.replicate 65536 0)) = none := by
  simp only [encode, encodeCommand, List.length_replicate]
  decide

/-! ### Transport faults (43 R166, 60 R181) -/

/-- An open Record with the flag up and a live Reader Task. -/
def recordingState : State := { State.reset with session := .recording, running := true, taskAlive := true, accum := [0x01] }

def eventsAfter (es : List Event) (s : State) : Option State := nextOf (runEvents es s)

-- A read error is surfaced, ends the task and, at the join, fails the Record: its closing still sends stop-record (70 R225), and
-- hands no WAV over.
theorem test_read_error : (eventsAfter (.read .error :: recordStopScript) recordingState).map
    (fun s => (s.wireOut, s.observations, s.session)) = some ([0xAA, 0x55, 0x02, 0x00, 0x00, 0x02], [.transportFault .readFailed], .idle) := by decide
-- R165: before the join the controller does not know of the read error, and goes on sending.
theorem test_send_after_read_error : (eventsAfter [.read .error, sendOk 0x03 [], .reportChunk 0] { recordingState with session := .playing }).map
    (fun s => (s.wireOut, s.taskAlive, s.failed)) = some ([0xAA, 0x55, 0x03, 0x00, 0x00, 0x03], false, false) := by decide
-- 43 R164: a Handshake is an operation too, its flag up until it stops; a second stop writes nothing new.
theorem test_handshake_flag : (eventsAfter [.startSession .handshake, sendOk 0x06 []] State.reset).map State.running = some true
    ∧ (eventsAfter (handshakeScript ++ [.stopSession, .joinSession]) State.reset).map (fun s => (s.running, s.wireOut))
      = some (false, [0xAA, 0x55, 0x06, 0x00, 0x00, 0x06]) := by decide
-- A write that fails after two bytes ends the Play: no retry, no start-play, no progress, and its stop-play (70 R225).
theorem test_write_error : (eventsAfter [.startSession .play, .send 0x08 [0x00] (.failed 2), sendOk 0x04 [], .reportChunk 0,
    sendOk 0x05 [], .stopSession, .joinSession] State.reset).map (fun s => (s.wireOut, s.observations, s.session))
      = some ([0xAA, 0x55, 0xAA, 0x55, 0x05, 0x00, 0x00, 0x05], [.transportFault .writeFailed], .idle) := by
  unfold eventsAfter
  simp only [runEvents, runEvent, beginSession, State.reset, openSession, startReader]
  by_cases h : Config.resetPerOperation = true
  · rw [if_pos h]; decide
  · rw [if_neg h]; decide

/-! ### A step -/

-- A word placed where the machine takes its next input runs as the first instruction after reset.
theorem test_step_runs_word : (nextOf (step (State.reset.withFetchWord 48 0x060000_0655AA))).map
    (fun s => (s.results, s.observations)) = some ([.drained [{ command := 0x06, payload := [] }]], [.notRecognized 0x06]) := by
  decide
-- 42 R151: five pieces, here of a small source.
theorem test_chunks : chunksOf 2 [1, 2, 3, 4, 5] = [[1, 2], [3, 4], [5]] := by decide

/-! ### Witnesses: hypotheses that can be met -/

theorem witness_DecodeOfEncode : (Instr.audioData .send [0x10, 0x20]).wellFormed = true
    ∧ encode (.audioData .send [0x10, 0x20]) = some [0xAA, 0x55, 0x03, 0x02, 0x00, 0x10, 0x20, 0x31] := by decide

/-- Both ends of the payload's range, for every statement that splits at 65535. -/
theorem witness_payload_bounds :
    (List.replicate 65535 (0 : Byte)).length ≤ 65535 ∧ 65535 < (List.replicate 65536 (0 : Byte)).length := by
  rw [List.length_replicate, List.length_replicate]
  decide

theorem witness_permuted_checksum : [0x10, 0x20, 0x03, 0x02, 0x00].Perm [(0x03 : Byte), 0x02, 0x00, 0x10, 0x20] := by decide

/-- One input for each clause of DecodeGivesVerdictInOrder: DE2, DE5, DE8, DE4, DE3. -/
theorem witness_decode_clauses :
    [(0xAA : Byte), 0x55, 0x06, 0x00, 0x00].length < 6
    ∧ ¬ headerAt [0x55, 0xAA, 0x06, 0x00, 0x00, 0x06] 0
    ∧ (headerAt [0xAA, 0x55, 0x06, 0x00, 0x00, 0x06, 0x00] 0
        ∧ [(0xAA : Byte), 0x55, 0x06, 0x00, 0x00, 0x06, 0x00].length ≠ le16 0x00 0x00 + 6)
    ∧ (headerAt [0xAA, 0x55, 0x06, 0x00, 0x00, 0x07] 0 ∧ xorFold [0x06, 0x00, 0x00] ≠ 0x07)
    ∧ xorFold (slice [0xAA, 0x55, 0x06, 0x00, 0x00, 0x06] 2 5) = byteAt [0xAA, 0x55, 0x06, 0x00, 0x00, 0x06] 5 := by decide

theorem witness_round_trip :
    decodeFrame [0xAA, 0x55, 0x06, 0x00, 0x00, 0x06] = .frame { command := 0x06, payload := [] }
    ∧ encodeFrame 0x06 [] = some [0xAA, 0x55, 0x06, 0x00, 0x00, 0x06] := by decide

/-- APPEND: room for the chunk, and one byte too many. -/
theorem witness_append_fits : fits (withCap 3 [0x01, 0x02]) 1 := by
  intro cap h; cases h; decide
theorem witness_append_overflows : (withCap 2 [0x01, 0x02]).params.bufCap = some 2 ∧ 2 < (withCap 2 [0x01, 0x02]).buf.length + 1 := by
  decide
theorem witness_within_cap : withinCap (withCap 2 [0x01, 0x02]) := by
  intro cap h; cases h; decide

/-- PARSE: no header (PA5), then one buffer for each of the other clauses (PA10, PA23, PA17, PA16), the header found first. -/
theorem witness_no_header : ∀ i, ¬ headerAt [0x00, 0x01, 0x02] i := by
  rintro (_ | _ | _ | i) <;> simp [headerAt]
theorem witness_first_header : firstHeader [0x00, 0xAA, 0x55] 1 ∧ ([0x00, 0xAA, 0x55].drop 1 : List Byte).length < 6 := by
  refine ⟨⟨by decide, ?_⟩, by decide⟩
  intro j hj
  obtain rfl : j = 0 := by omega
  decide
theorem witness_parse_clauses :
    (firstHeader [0xAA, 0x55, 0x03, 0x02, 0x00, 0x10] 0 ∧ 6 < le16 0x02 0x00 + 6)
    ∧ (firstHeader [0xAA, 0x55, 0x06, 0x00, 0x00, 0x06] 0 ∧ xorFold [0x06, 0x00, 0x00] = 0x06)
    ∧ (firstHeader [0xAA, 0x55, 0x06, 0x00, 0x00, 0x07] 0 ∧ xorFold [0x06, 0x00, 0x00] ≠ 0x07) := by
  refine ⟨⟨⟨by decide, fun j hj => by omega⟩, by decide⟩, ⟨⟨by decide, fun j hj => by omega⟩, by decide⟩,
    ⟨⟨by decide, fun j hj => by omega⟩, by decide⟩⟩

theorem witness_wait : (parseBuf .two [0x00, 0x01, 0xAA]).1.isWait = true := by decide
theorem witness_candidate : headerAt [0xAA, 0x55, 0x06, 0x00, 0x00, 0x07, 0xFF] 0
    ∧ 6 + le16 0x00 0x00 ≤ [(0xAA : Byte), 0x55, 0x06, 0x00, 0x00, 0x07, 0xFF].length := by decide
theorem witness_yield : parseBuf .two [0x00, 0xAA, 0x55, 0x06, 0x00, 0x00, 0x06, 0xFF]
    = (.frame { command := 0x06, payload := [] }, [0xFF]) := by decide
theorem witness_valid_frame : isValidFrame [0xAA, 0x55, 0x03, 0x02, 0x00, 0x10, 0x20, 0x31] = true := by decide

/-- PA22's first frame: complete, corrupt, and no header pair behind its own. -/
theorem witness_corrupt_frame :
    xorFold ([0xAA, 0x55, 0x03, 0x02, 0x00, 0x10, 0x20, 0x30].drop 2) ≠ 0
    ∧ [(0xAA : Byte), 0x55, 0x03, 0x02, 0x00, 0x10, 0x20, 0x30].length = 6 + le16 0x02 0x00
    ∧ headerAt [0xAA, 0x55, 0x03, 0x02, 0x00, 0x10, 0x20, 0x30] 0 := by decide
theorem witness_corrupt_frame_no_pair : ∀ i, ¬ headerAt [0x03, 0x02, 0x00, 0x10, 0x20, 0x30] i := by
  rintro (_ | _ | _ | _ | _ | _ | i) <;> simp [headerAt]

theorem witness_drain_policies : Params.hw.drainPolicy = .quiescent ∧ (firstNoFrame []).params.drainPolicy = .firstNoFrame := by
  decide
theorem witness_drain_outcomes : parseBuf .two [0xAA, 0x55, 0x06, 0x00, 0x00, 0x07] = (.corrupt, [0x06, 0x00, 0x00, 0x07])
    ∧ parseBuf .two [0x07] = (.noHeader, [0x07]) := by decide
theorem witness_drain_bound : [(0xAA : Byte), 0x55].length / ResyncSkip.two.bytes + 1 ≤ 2 := by decide
/-- A run with a capacity of 65540 + 1 and chunks of one byte. -/
theorem witness_bounded_run : (withCap 65541 []).params.drainPolicy = .quiescent ∧ (withCap 65541 []).params.bufCap = some 65541
    ∧ 65540 + 1 ≤ 65541 ∧ (withCap 65541 []).buf.length ≤ 65540 ∧ ∀ c ∈ [[(0xAA : Byte)], [0x55]], c.length ≤ 1 := by decide
theorem witness_run : ∃ t, runOps [.append [0xAA, 0x55], .parse] State.reset = .next t := ⟨_, rfl⟩
theorem witness_run_no_reset : Instr.reset ∉ [Instr.append [0xAA, 0x55], .parse] := by decide
theorem witness_unbounded : State.reset.params.drainPolicy = .quiescent ∧ State.reset.params.bufCap = none := by decide
theorem witness_other_policy : (firstNoFrame []).params = { Params.hw with drainPolicy := .firstNoFrame } := by decide

theorem witness_receive_room : fits State.reset 6 := by intro cap h; cases h
theorem witness_receive_overflow : (withCap 5 []).params.bufCap = some 5 ∧ 5 < (withCap 5 []).buf.length + ([] : List Byte).length + 6 := by
  decide
theorem witness_unnamed : isUnnamed 0x09 = true := by decide
/-- One frame for each of the dispatcher's arms. -/
theorem witness_dispatch : (Frame.mk 0x03 []).command = 0x03 ∧ (Frame.mk 0x07 []).command = 0x07
    ∧ (Frame.mk 0x06 []).command ≠ 0x03 ∧ (Frame.mk 0x06 []).command ≠ 0x07 := by decide

/-- A state whose Reader Task is about to read a handshake, one whose host is about to issue a PARSE, and an ended run. -/
theorem witness_step : (State.reset.withFetchWord 48 0x060000_0655AA).taskAlive = true
    ∧ (State.reset.withFetchWord 48 0x060000_0655AA).running = true
    ∧ (State.reset.withFetchWord 48 0x060000_0655AA).script = [.read (.data [0xAA, 0x55, 0x06, 0x00, 0x00, 0x06])]
    ∧ decoded [0xAA, 0x55, 0x06, 0x00, 0x00, 0x06] = some (.handshake (.recv 0x06) [])
    ∧ ({ State.reset with script := [.op .parse] } : State).script = [.op .parse] ∧ State.reset.script = [] := by decide

/-- An instruction of each shape that completes: sent, received, appended, parsed. -/
theorem witness_exec_completes : (∃ t, exec (.handshake .send []) State.reset = .next t)
    ∧ (∃ t, exec (.handshake (.recv 0x06) []) State.reset = .next t) ∧ (∃ t, exec (.append [0xAA]) State.reset = .next t)
    ∧ (∃ t, exec .parse State.reset = .next t) := ⟨⟨_, rfl⟩, ⟨_, rfl⟩, ⟨_, rfl⟩, ⟨_, rfl⟩⟩
theorem witness_shapes : (Instr.handshake .send []).received ≠ .handshake .send [] ∧ encode (.handshake .send []) ≠ none
    ∧ (Instr.handshake (.recv 0x06) []).received = .handshake (.recv 0x06) [] ∧ encode .parse = none := by decide
/-- The two ways an instruction stops. -/
theorem witness_stops : (∃ r, exec (.append [0x00]) (withCap 2 [0x01, 0x02]) = .fault r)
    ∧ (∃ r, exec (.encode 0x03 (List.replicate 65536 0)) State.reset = .refused r) := by
  refine ⟨⟨_, rfl⟩, ⟨.encodeOversize 65536, ?_⟩⟩
  rw [exec, execEncode, encodeFrame, List.length_replicate]
  rfl
theorem witness_same_block : (withBuf [0xAA]).buf = ({ withBuf [0xAA] with accum := [0x01] } : State).buf
    ∧ (withBuf [0xAA]).params = ({ withBuf [0xAA] with accum := [0x01] } : State).params := by decide
theorem witness_inv_step : Inv State.reset ∧ ∃ t, step State.reset = .next t := by
  refine ⟨⟨rfl, ?_, ?_, ?_, ?_, ?_⟩, _, rfl⟩
  · intro cap h
    cases h
  · intro h
    simp [State.reset] at h
  · intro h
    simp [State.reset] at h
  · intro h
    simp [State.reset] at h
  · intro h
    simp [State.reset] at h
theorem witness_idle : State.reset.session = .idle := by decide
theorem witness_piece_size : 0 < AudioFormat.mp3.chunkBytes ∧ (List.replicate 2049 (0 : Byte)).length = 2049 := by
  rw [List.length_replicate]
  decide
theorem witness_failed : { recordingState with failed := true }.failed = true ∧ recordingState.session ≠ .idle
    ∧ recordingState.running = true ∧ recordingState.failed = false ∧ recordingState.session = .recording
    ∧ { recordingState with session := .playing, failed := true }.session = .playing
    ∧ { recordingState with taskFailed := true }.taskFailed = true ∧ recordingState.taskFailed = false := by decide
/-- One move of each kind that ReaderAndControllerShareNoMore speaks of. -/
theorem witness_sharing : (∃ t, runEvent (sendOk 0x03 []) recordingState = .next t) ∧ (∃ t, runEvent (.reportChunk 0) recordingState = .next t)
    ∧ (∃ t, runEvent .stopSession recordingState = .next t) ∧ (∃ t, runEvent .openFails State.reset = .next t)
    ∧ (∃ t, runEvent (.startSession .record) State.reset = .next t) ∧ (∃ t, runEvent (.startSession .handshake) State.reset = .next t)
    ∧ (∃ t, runEvent (.read .error) recordingState = .next t) ∧ (∃ t, runEvent (.read (.data [0xAA])) recordingState = .next t) :=
  ⟨⟨_, rfl⟩, ⟨_, rfl⟩, ⟨_, rfl⟩, ⟨_, rfl⟩, ⟨_, rfl⟩, ⟨_, rfl⟩, ⟨_, rfl⟩, ⟨_, rfl⟩⟩
theorem witness_stop_command : stopCommand { recordingState with failed := true }.session = some 0x02
    ∧ stopCommand recordingState.session ≠ some 0x05 ∧ stopCommand State.reset.session = none := by decide
/-- A task that loops, one that a read error ended with the flag still up, and a session of each kind with the flag. -/
theorem witness_join : readerLoops recordingState = true ∧ readerLoops { recordingState with taskAlive := false } = false
    ∧ (∃ t, runEvent .joinSession { recordingState with taskAlive := false } = .next t)
    ∧ runEvent .joinSession recordingState = .fault .joinBeforeStop := ⟨by decide, by decide, ⟨_, rfl⟩, rfl⟩
theorem witness_pieces : ∀ c ∈ [[(0x10 : Byte)]] ++ [[0x20]], c.length ≤ 65535 := by decide
theorem witness_first_no_frame : State.reset.params.drainPolicy = .quiescent ∧ State.reset.params.bufCap = none
    ∧ firstNoFrame [] = { State.reset with params := { State.reset.params with drainPolicy := .firstNoFrame } } := by decide
theorem witness_received_append : arrivingBytes (.handshake (.recv 0x06) []) = [0xAA, 0x55, 0x06, 0x00, 0x00, 0x06]
    ∧ exec (.handshake (.recv 0x06) []) (withCap 5 []) = .fault (.bufferOverflow 0 6) := ⟨by decide, rfl⟩

/-- A one-piece source: the whole Play, and the same cancelled after its only piece. -/
theorem witness_play : playScript .pcm [0x10] = playCancelled .pcm [0x10] 1 ∧ playScript .pcm [0x10] ≠ playCancelled .pcm [0x10] 0 := by
  decide
/-- An open Record with the flag up, and the same with the flag down and the task still alive. -/
theorem witness_recording :
    ({ State.reset with session := .recording, running := true, taskAlive := true } : State).session = .recording
    ∧ ({ State.reset with session := .recording, running := true, taskAlive := true } : State).running = true
    ∧ ({ State.reset with session := .recording, taskAlive := true } : State).taskAlive = true
    ∧ ({ State.reset with session := .recording, taskAlive := true } : State).running = false := by decide

end Sys2Proof.Tests
end

section
/-! PROOFS. The Frame Codec, 40_codec R90, R92, R93: what CHECKSUM, ENCODE and DECODE answer in every state. -/
namespace Sys2Proof.Machine

/-! ### The three operations, one equation per outcome -/

theorem exec_checksum (x : List Byte) (s : State) :
    exec (.checksum x) s = .next (s.pushResult (.checksum (xorFold x))) := rfl

theorem exec_decode (x : List Byte) (s : State) :
    exec (.decode x) s = .next (s.pushResult (.decoded (decodeFrame x))) := rfl

theorem encodeFrame_of_fits (c : Byte) {p : List Byte} (h : p.length ≤ 65535) :
    encodeFrame c p = some (frameBytes c p (frameChecksum c p)) :=
  (encodeFrame_eq_some_iff c p _).2 ⟨h, rfl⟩

theorem encodeFrame_of_oversize (c : Byte) {p : List Byte} (h : 65535 < p.length) : encodeFrame c p = none :=
  if_pos h

theorem exec_encode_of_fits (c : Byte) {p : List Byte} (s : State) (h : p.length ≤ 65535) :
    exec (.encode c p) s = .next (s.pushResult (.encoded (frameBytes c p (frameChecksum c p)))) := by
  simp only [exec, execEncode, encodeFrame_of_fits c h]

theorem exec_encode_of_oversize (c : Byte) {p : List Byte} (s : State) (h : 65535 < p.length) :
    exec (.encode c p) s = .refused (.encodeOversize p.length) := by
  simp only [exec, execEncode, encodeFrame_of_oversize c h]

/-! ### The XOR fold -/

/-- Exclusive-or commutes, so the fold does not see the order of the bytes (40 R90, R95 (c)). -/
theorem xorFold_perm {x y : List Byte} (h : x.Perm y) : xorFold x = xorFold y :=
  h.foldl_eq' (fun a _ b _ acc => by rw [BitVec.xor_assoc, BitVec.xor_assoc, BitVec.xor_comm a b]) 0

/-! ### `Valid` and DECODE in the words of the spec -/

/-- An offset past the end reads as 0, which is neither header byte, so reading the pair tells that it stands there. -/
theorem headerAt_zero_iff (x : List Byte) : headerAt x 0 ↔ byteAt x 0 = 0xAA ∧ byteAt x 1 = 0x55 := by
  match x with
  | [] => decide
  | [a] => simp [byteAt]
  | a :: b :: t => simp [headerAt]

theorem isValidFrame_iff (x : List Byte) :
    isValidFrame x = true ↔ 6 ≤ x.length ∧ headerAt x 0 ∧ x.length = le16 (byteAt x 3) (byteAt x 4) + 6
      ∧ xorFold (slice x 2 (x.length - 1)) = byteAt x (x.length - 1) := by
  simp only [isValidFrame_eq, Bool.and_eq_true, decide_eq_true_eq, and_assoc, headerAt_zero_iff, Nat.add_comm 6,
    eq_comm (a := byteAt x (x.length - 1))]

/-- The four tests of R93: once the length field is right, the checksum byte is the last one and covers all between it
and the header. -/
theorem decodeFrame_tests (x : List Byte) :
    decodeFrame x =
      if x.length < 6 then .invalid .tooShort
      else if ¬ headerAt x 0 then .invalid .badHeader
      else if x.length ≠ le16 (byteAt x 3) (byteAt x 4) + 6 then .invalid .lengthMismatch
      else if xorFold (slice x 2 (x.length - 1)) ≠ byteAt x (x.length - 1) then .invalid .badChecksum
      else .frame (frameOf x) := by
  have hhead : (byteAt x 0 ≠ 0xAA ∨ byteAt x 1 ≠ 0x55) ↔ ¬ headerAt x 0 := by
    rw [headerAt_zero_iff, not_and_or]
  simp only [decodeFrame_eq, hhead]
  by_cases hlen : x.length = le16 (byteAt x 3) (byteAt x 4) + 6
  · have hlast : 5 + le16 (byteAt x 3) (byteAt x 4) = x.length - 1 := by omega
    rw [hlast]; rfl
  · rw [if_pos hlen, if_pos hlen]

theorem decodeFrame_of_isValidFrame {x : List Byte} (h : isValidFrame x = true) :
    decodeFrame x = .frame (frameOf x) := by
  obtain ⟨h6, hhead, hlen, hchk⟩ := (isValidFrame_iff x).1 h
  rw [decodeFrame_tests, if_neg (Nat.not_lt.2 h6), if_neg (not_not.2 hhead), if_neg (not_not.2 hlen),
    if_neg (not_not.2 hchk)]

/-- A frame is the verdict that passes all four tests. -/
theorem isValidFrame_of_decodeFrame {x : List Byte} {f : Frame} (h : decodeFrame x = .frame f) :
    isValidFrame x = true := by
  rw [decodeFrame_tests] at h
  split_ifs at h with h6 hhead hlen hchk
  exact (isValidFrame_iff x).2 ⟨Nat.not_lt.1 h6, hhead, not_not.1 hlen, not_not.1 hchk⟩

/-! ### What ENCODE builds -/

theorem isValidFrame_frameBytes (c : Byte) {p : List Byte} (h : p.length ≤ 65535) :
    isValidFrame (frameBytes c p (frameChecksum c p)) = true := by
  have hlast : (frameBytes c p (frameChecksum c p)).length - 1 = 5 + p.length := by
    rw [frameBytes_length]; omega
  refine (isValidFrame_iff _).2 ⟨?_, ⟨rfl, rfl⟩, ?_, ?_⟩
  · rw [frameBytes_length]; omega
  · rw [frameBytes_lengthField c p _ h, frameBytes_length]
  · rw [hlast, frameBytes_covered, frameBytes_checksum]; rfl

/-- Both length bytes are zero, so the covered bytes fold to the command. -/
theorem frameBytes_empty (c : Byte) : frameBytes c [] (frameChecksum c []) = [0xAA, 0x55, c, 0x00, 0x00, c] := by
  simp [frameBytes, frameChecksum, coveredBytes, lo8, hi8]

/-! ### The statements -/

/-- Settles O5: CHECKSUM notes `xorFold`, whose laws are the clauses. -/
theorem checksumIsXorFold : Obligations.ChecksumIsXorFold := by
  intro x s
  refine ⟨xorFold x, exec_checksum x s, rfl, ?_, ?_, ?_⟩
  · rintro rfl; exact xorFold_nil
  · rintro b rfl; simp
  · intro y hy
    rw [exec_checksum, exec_checksum, xorFold_perm hy]

/-- Settles O6: the frame laid out with the checksum the format asks for, on either side of the largest payload. -/
theorem encodeBuildsFrameOrRefuses : Obligations.EncodeBuildsFrameOrRefuses := by
  intro c p s
  constructor
  · intro h
    refine ⟨frameBytes c p (frameChecksum c p), exec_encode_of_fits c s h, rfl, frameBytes_length c p _,
      isValidFrame_frameBytes c h, ?_⟩
    rintro rfl; exact frameBytes_empty c
  · exact exec_encode_of_oversize c s

/-- Settles O7: each clause is one branch of the four tests, and the last branch is `Valid`. -/
theorem decodeGivesVerdictInOrder : Obligations.DecodeGivesVerdictInOrder := by
  intro x s
  refine ⟨decodeFrame x, exec_decode x s, ?_, ?_, ?_, ?_, ?_, ?_⟩
  · intro hshort
    rw [decodeFrame_tests, if_pos hshort]
  · intro h6 hhead
    rw [decodeFrame_tests, if_neg (Nat.not_lt.2 h6), if_pos hhead]
  · intro h6 hhead hlen
    rw [decodeFrame_tests, if_neg (Nat.not_lt.2 h6), if_neg (not_not.2 hhead), if_pos hlen]
  · intro h6 hhead hlen hchk
    rw [decodeFrame_tests, if_neg (Nat.not_lt.2 h6), if_neg (not_not.2 hhead), if_neg (not_not.2 hlen), if_pos hchk]
  · intro h6 hhead hlen hchk
    exact decodeFrame_of_isValidFrame ((isValidFrame_iff x).2 ⟨h6, hhead, hlen, hchk⟩)
  · constructor
    · rintro ⟨f, hf⟩; exact isValidFrame_of_decodeFrame hf
    · intro hv; exact ⟨frameOf x, decodeFrame_of_isValidFrame hv⟩

end Sys2Proof.Machine
end

section
/-! PROOFS. The Stream Parser, 41_stream_parser R110 to R120: what RESET, APPEND, PARSE and DRAIN answer in every state. -/
namespace Sys2Proof.Machine

/-! ### RESET and APPEND -/

theorem exec_reset (s : State) : exec .reset s = .next (s.setBuf []) := rfl

theorem exec_append_of_fits {s : State} {c : List Byte} (h : fits s c.length) :
    exec (.append c) s = .next (s.setBuf (s.buf ++ c)) := by
  simp only [exec, execAppend, appendChunk]
  split
  case h_1 => rfl
  case h_2 cap hcap => rw [if_neg (Nat.not_lt.2 (h cap hcap))]; rfl

theorem exec_append_of_overflow {s : State} {c : List Byte} {cap : Nat} (hcap : s.params.bufCap = some cap)
    (h : cap < s.buf.length + c.length) :
    exec (.append c) s = .fault (.bufferOverflow s.buf.length c.length) := by
  simp only [exec, execAppend, appendChunk, hcap]
  exact if_pos h

theorem withinCap_iff_fits_zero (s : State) : withinCap s ↔ fits s 0 := Iff.rfl

/-- Room for two chunks together is room for the first, and then for the second behind it. -/
theorem fits_append_iff (s : State) (c d : List Byte) :
    fits s (c ++ d).length ↔ fits s c.length ∧ fits (s.setBuf (s.buf ++ c)) d.length := by
  simp only [fits, State.setBuf_params, State.setBuf_buf, List.length_append]
  constructor
  · intro h
    constructor
    · intro cap hcap; have := h cap hcap; omega
    · intro cap hcap; have := h cap hcap; omega
  · rintro ⟨-, h⟩ cap hcap
    have := h cap hcap; omega

/-! ### The header search -/

/-- The pair at the head is taken; otherwise the search goes on one byte further. -/
theorem findHeader_cons (x : Byte) (t : List Byte) :
    findHeader (x :: t) = if headerAt (x :: t) 0 then some 0 else (findHeader t).map (· + 1) := by
  have hpair : headerAt (x :: t) 0 ↔ x = Config.header0 ∧ t.head? = some Config.header1 := by
    simp [headerAt, List.head?_eq_getElem?]
  simp only [findHeader, hpair]

theorem findHeader_eq_none {b : List Byte} (h : ∀ i, ¬ headerAt b i) : findHeader b = none := by
  induction b with
  | nil => rfl
  | cons x t ih =>
    rw [findHeader_cons, if_neg (h 0), ih (fun i => h (i + 1))]; rfl

theorem findHeader_of_firstHeader {b : List Byte} {i : Nat} (h : firstHeader b i) : findHeader b = some i := by
  obtain ⟨hat, hlow⟩ := h
  induction b generalizing i with
  | nil => simp [headerAt] at hat
  | cons x t ih =>
    rw [findHeader_cons]
    cases i with
    | zero => exact if_pos hat
    | succ i =>
      have htail : findHeader t = some i := ih hat (fun j hj => hlow (j + 1) (Nat.succ_lt_succ hj))
      rw [if_neg (hlow 0 (Nat.succ_pos i)), htail]; rfl

/-! ### PARSE -/

theorem exec_parse (s : State) : exec .parse s = .next (parseOnce s) := rfl

/-- With no frame to dispatch, an attempt writes the buffer and the note of its outcome alone. -/
theorem exec_parse_of_no_frame {s : State} {o : ParseOutcome} {b' : List Byte}
    (h : parseBuf s.params.resyncSkip s.buf = (o, b')) (ho : o.yielded = []) :
    exec .parse s = .next ((s.setBuf b').pushResult (.parsed o)) := by
  rw [exec_parse, parseOnce, h]
  simp only [ho]; rfl

/-- Whatever the outcome, the attempt writes the buffer and notes the outcome; dispatching a frame touches neither field. -/
theorem exec_parse_of_outcome {s : State} {o : ParseOutcome} {b' : List Byte}
    (h : parseBuf s.params.resyncSkip s.buf = (o, b')) :
    ∃ u, exec .parse s = .next u ∧ u.buf = b' ∧ u.results = s.results ++ [.parsed o] :=
  ⟨parseOnce s, exec_parse s, by rw [parseOnce_buf, h], by rw [parseOnce_results, h]⟩

/-! ### DRAIN -/

theorem exec_drain (s : State) : exec .drain s = .next (drainAll s) := rfl

theorem drainTurn_of_wait {p : Params} {rest : List Frame × List Byte} {b' : List Byte} {o : ParseOutcome}
    (h : o.isWait = true) : drainTurn p rest b' o = ([], b') := by
  cases o with
  | frame f => cases h
  | corrupt => cases h
  | noHeader => rfl
  | needMin => rfl
  | needBody => rfl

/-- One turn of the loop on whole drains: an attempt that goes on leaves fewer bytes, so the fuel left is enough for a
drain of them (41 R121). -/
theorem drainBuf_turn (p : Params) {b b' : List Byte} {o : ParseOutcome} (h : parseBuf p.resyncSkip b = (o, b')) :
    drainBuf p b = drainTurn p (drainBuf p b') b' o := by
  rw [drainBuf, drainFrom_succ p b.length h]
  cases hw : o.isWait with
  | true => rw [drainTurn_of_wait hw, drainTurn_of_wait hw]
  | false =>
    have hshort : b'.length < b.length := by
      have hless := parseBuf_shorter h hw
      have hskip := skip_bytes_pos p.resyncSkip
      omega
    rw [drainFrom_fuel p b' b.length (b'.length + 1) hshort (Nat.lt_succ_self _), drainBuf]

/-! ### The statements -/

/-- Settles O14: the capacity test on either side, and room for both chunks split in two. -/
theorem appendExtendsOrOverflows : Obligations.AppendExtendsOrOverflows := by
  intro s c d
  refine ⟨exec_append_of_fits, fun cap => exec_append_of_overflow, ?_, ?_⟩
  · intro hcap
    have hroom : fits s ([] : List Byte).length := (withinCap_iff_fits_zero s).1 hcap
    rw [exec_append_of_fits hroom, List.append_nil]; rfl
  · intro hroom
    obtain ⟨hc, hd⟩ := (fits_append_iff s c d).1 hroom
    simp only [runOps, exec_append_of_fits hc, andThen_next, exec_append_of_fits hd, exec_append_of_fits hroom,
      State.setBuf_buf, List.append_assoc]
    rfl

/-- Settles O16: the search decides step 1, and each branch of steps 3 to 5 is one clause. -/
theorem parseAttemptFollowsSteps : Obligations.ParseAttemptFollowsSteps := by
  intro s
  constructor
  · intro hnone
    exact exec_parse_of_no_frame (parseBuf_of_none (findHeader_eq_none hnone)) rfl
  · rintro i t n hfirst rfl rfl
    have hat := parseBuf_of_header (skip := s.params.resyncSkip) (findHeader_of_firstHeader hfirst)
    refine ⟨?_, ?_, ?_, ?_⟩
    · intro hshort
      exact exec_parse_of_no_frame (hat.trans (parseAt_of_short hshort)) rfl
    · intro h6 hbody
      exact exec_parse_of_no_frame (hat.trans (parseAt_of_incomplete h6 (by omega))) rfl
    · intro h6 hwhole hchk
      rw [Nat.add_comm _ 6]
      exact exec_parse_of_outcome (hat.trans (parseAt_of_match (by omega) hchk))
    · intro h6 hwhole hchk
      exact exec_parse_of_no_frame (hat.trans (parseAt_of_mismatch (by omega) hchk)) rfl

/-- Settles O24: each clause is one arm of a turn of the loop. -/
theorem drainIsTheParseLoop : Obligations.DrainIsTheParseLoop := by
  refine ⟨exec_drain, ?_⟩
  intro p b b' o h
  rw [drainBuf_turn p h]
  refine ⟨?_, ?_, ?_, ?_⟩
  · rintro f rfl; rfl
  · rintro rfl hquiescent; exact if_pos hquiescent
  · rintro rfl hfirst; exact if_neg (by simp [hfirst])
  · exact drainTurn_of_wait

/-- Settles O12: the machine after reset has an empty buffer, and RESET writes it alone. -/
theorem resetEmptiesBuffer : Obligations.ResetEmptiesBuffer := ⟨rfl, exec_reset⟩

end Sys2Proof.Machine
end

section
/-! PROOFS. The laws of the checksum and the round trip of the codec, 40_codec R94, R95 and 30_encoding R66, R74. -/
namespace Sys2Proof.Machine

/-! ### The XOR fold (40 R95) -/

@[simp] theorem xorFold_append (x y : List Byte) : xorFold (x ++ y) = xorFold x ^^^ xorFold y := by
  induction x with
  | nil => simp
  | cons a x ih => simp [ih, BitVec.xor_assoc]

/-- Each bit of the fold is the parity of its column (40 R95 (g)). -/
theorem xorFold_getLsbD (x : List Byte) (k : Nat) :
    (xorFold x).getLsbD k = (x.countP (fun b => b.getLsbD k) % 2 == 1) := by
  induction x with
  | nil => simp
  | cons a x ih =>
    rw [xorFold_cons, BitVec.getLsbD_xor, ih, List.countP_cons]
    rcases Nat.mod_two_eq_zero_or_one (x.countP (fun b => b.getLsbD k)) with h | h <;>
      cases ha : a.getLsbD k <;> simp [h, Nat.add_mod]

/-! ### A frame and its fields -/

@[simp] theorem frameOf_frameBytes (c : Byte) (p : List Byte) (chk : Byte) :
    frameOf (frameBytes c p chk) = { command := c, payload := p } := by
  have hlast : (frameBytes c p chk).length - 1 = 5 + p.length := by rw [frameBytes_length]; omega
  rw [frameOf, hlast, frameBytes_command, frameBytes_payload]

/-- A byte sequence begun by the header and as long as its length field states is laid out as a frame (30 R60). -/
theorem exists_frameBytes {x : List Byte} (hhead : headerAt x 0)
    (hlen : x.length = le16 (byteAt x 3) (byteAt x 4) + 6) :
    ∃ c p chk, x = frameBytes c p chk ∧ p.length ≤ 65535 := by
  obtain ⟨h0, h1⟩ := (headerAt_zero_iff x).1 hhead
  have hx := eq_frameBytes x h0 h1 (by omega)
  refine ⟨_, _, _, hx, ?_⟩
  have hfield := le16_le (byteAt x 3) (byteAt x 4)
  rw [slice_length]; omega

theorem isValidFrame_frameBytes_iff (c : Byte) {p : List Byte} (chk : Byte) (h : p.length ≤ 65535) :
    isValidFrame (frameBytes c p chk) = true ↔ chk = frameChecksum c p := by
  have hlast : (frameBytes c p chk).length - 1 = 5 + p.length := by rw [frameBytes_length]; omega
  constructor
  · intro hv
    obtain ⟨-, -, -, hchk⟩ := (isValidFrame_iff _).1 hv
    rw [hlast, frameBytes_covered, frameBytes_checksum] at hchk
    exact hchk.symm
  · rintro rfl; exact isValidFrame_frameBytes c h

/-- A valid byte sequence is the encoding of its own fields, which the length field can state (30 R74). -/
theorem frameOf_bytes {x : List Byte} (h : isValidFrame x = true) :
    (frameOf x).bytes = x ∧ (frameOf x).payload.length ≤ 65535 := by
  obtain ⟨-, hhead, hlen, -⟩ := (isValidFrame_iff x).1 h
  obtain ⟨c, p, chk, rfl, hp⟩ := exists_frameBytes hhead hlen
  obtain rfl := (isValidFrame_frameBytes_iff c chk hp).1 h
  rw [frameOf_frameBytes]
  exact ⟨rfl, hp⟩

/-- What ENCODE answers is a valid frame with the fields it was given. -/
theorem encodeFrame_valid {c : Byte} {p f : List Byte} (h : encodeFrame c p = some f) :
    isValidFrame f = true ∧ frameOf f = { command := c, payload := p } := by
  obtain ⟨hp, rfl⟩ := (encodeFrame_eq_some_iff c p f).1 h
  exact ⟨isValidFrame_frameBytes c hp, frameOf_frameBytes c p _⟩

theorem encodeFrame_frameOf {x : List Byte} (h : isValidFrame x = true) :
    encodeFrame (frameOf x).command (frameOf x).payload = some x := by
  obtain ⟨hx, hp⟩ := frameOf_bytes h
  exact (encodeFrame_eq_some_iff _ _ _).2 ⟨hp, hx.symm⟩

/-- From offset 2 a frame is its covered bytes and then its checksum byte. -/
theorem drop_two_eq {x : List Byte} (h : 6 ≤ x.length) :
    x.drop 2 = slice x 2 (x.length - 1) ++ [byteAt x (x.length - 1)] := by
  rcases List.eq_nil_or_concat x with rfl | ⟨y, b, rfl⟩
  · simp at h
  · rw [List.concat_eq_append] at h ⊢
    have hy : 5 ≤ y.length := by simpa using h
    have hlen : (y ++ [b]).length - 1 = y.length := by simp
    rw [hlen, byteAt_append_length, slice_append_left _ _ _ _ (Nat.le_refl _), slice,
      List.take_of_length_le (by simp), List.drop_append_of_le_length (by omega)]

/-- The checksum byte matches exactly when the covered bytes and it fold to zero (30 R66). -/
theorem checksum_matches_iff {x : List Byte} (h : 6 ≤ x.length) :
    xorFold (slice x 2 (x.length - 1)) = byteAt x (x.length - 1) ↔ xorFold (x.drop 2) = 0 := by
  rw [drop_two_eq h, xorFold_concat]
  exact BitVec.xor_eq_zero_iff.symm

/-! ### The statements -/

/-- Settles O9: every law is one of the fold of a concatenation. -/
theorem checksumLaws : Obligations.ChecksumLaws := by
  refine ⟨xorFold_append, fun _ _ => xorFold_perm, ?_, ?_, ?_, fun x k _ => xorFold_getLsbD x k⟩
  · intro x; simp
  · intro x; simp
  · intro x y a b
    simp only [xorFold_append, xorFold_cons]
    generalize xorFold x = u, xorFold y = v
    calc (u ^^^ (a ^^^ v)) ^^^ (u ^^^ (b ^^^ v))
        = (u ^^^ u) ^^^ (v ^^^ v) ^^^ (a ^^^ b) := by ac_rfl
      _ = a ^^^ b := by simp

/-- Settles O10: the last condition of `Valid` is that everything from offset 2 folds to zero. -/
theorem validIffTailFoldsToZero : Obligations.ValidIffTailFoldsToZero := by
  intro x
  rw [isValidFrame_iff, Nat.add_comm 6]
  constructor
  · rintro ⟨h6, hhead, hlen, hchk⟩
    exact ⟨hhead, h6, hlen, (checksum_matches_iff h6).1 hchk⟩
  · rintro ⟨hhead, h6, hlen, hzero⟩
    exact ⟨h6, hhead, hlen, (checksum_matches_iff h6).2 hzero⟩

/-- Settles O11: a valid frame is fixed by its fields, since it is their encoding. -/
theorem encodingIsOneToOne : Obligations.EncodingIsOneToOne := by
  refine ⟨?_, fun x => encodeFrame_frameOf⟩
  intro c p hp
  refine ⟨frameBytes c p (frameChecksum c p), ⟨isValidFrame_frameBytes c hp, frameOf_frameBytes c p _⟩, ?_⟩
  rintro x ⟨hx, hfields⟩
  rw [← (frameOf_bytes hx).1, hfields]; rfl

/-- Settles O8: both directions go through `Valid`, and two frames with equal bytes have equal fields. -/
theorem encodeDecodeRoundTrip : Obligations.EncodeDecodeRoundTrip := by
  refine ⟨?_, ?_, ?_⟩
  · intro c p hp
    refine ⟨_, encodeFrame_of_fits c hp, ?_⟩
    rw [decodeFrame_of_isValidFrame (isValidFrame_frameBytes c hp), frameOf_frameBytes]
  · intro x f hf
    have hx := isValidFrame_of_decodeFrame hf
    obtain rfl : frameOf x = f := by
      simpa [decodeFrame_of_isValidFrame hx] using hf
    exact encodeFrame_frameOf hx
  · intro c d p q f hc hd
    simpa using (encodeFrame_valid hc).2.symm.trans (encodeFrame_valid hd).2

end Sys2Proof.Machine
end

section
/-! PROOFS. The wire commands as one family, 30_encoding R60, R69 to R71, R74, R78: each of the nine is a code and a
constructor, and what holds of them is proved over the family. -/
namespace Sys2Proof.Machine

/-! ### The nine wire commands -/

/-- The code of a wire command and the instruction form it has (30 R69, R70). -/
inductive WireForm : Byte → (Link → List Byte → Instr) → Prop where
  | startRecord : WireForm 0x01 .startRecord
  | stopRecord : WireForm 0x02 .stopRecord
  | audioData : WireForm 0x03 .audioData
  | startPlay : WireForm 0x04 .startPlay
  | stopPlay : WireForm 0x05 .stopPlay
  | handshake : WireForm 0x06 .handshake
  | ack : WireForm 0x07 .ack
  | setFormat : WireForm 0x08 .setFormat
  | unnamed (c : Byte) : WireForm c (.unnamedCommand c)

/-- The command map takes the 248 unnamed codes to UNNAMED_COMMAND and no other (30 R70). -/
theorem instrOfCommand_eq_unnamedCommand_iff (c : Byte) (d : Link) (p : List Byte) :
    instrOfCommand c d p = .unnamedCommand c d p ↔ isUnnamed c = true := by
  have hnames : isUnnamed c = true ↔
      c ≠ 0x01 ∧ c ≠ 0x02 ∧ c ≠ 0x03 ∧ c ≠ 0x04 ∧ c ≠ 0x05 ∧ c ≠ 0x06 ∧ c ≠ 0x07 ∧ c ≠ 0x08 := by
    revert c; decide
  rw [hnames, instrOfCommand]
  split_ifs with h1 h2 h3 h4 h5 h6 h7 h8
  case neg => exact iff_of_true rfl ⟨h1, h2, h3, h4, h5, h6, h7, h8⟩
  all_goals simp [*]

namespace WireForm

variable {c : Byte} {mk : Link → List Byte → Instr}

theorem exec_eq (h : WireForm c mk) (d : Link) (p : List Byte) (s : State) : exec (mk d p) s = wireCommand c d p s := by
  cases h <;> rfl

theorem encode_eq (h : WireForm c mk) (d : Link) (p : List Byte) : encode (mk d p) = encodeCommand c d p := by
  cases h <;> rfl

theorem received_eq (h : WireForm c mk) (d : Link) (p : List Byte) : (mk d p).received = mk (d.received c p) p := by
  cases h <;> rfl

theorem payload_eq (h : WireForm c mk) (d : Link) (p : List Byte) : (mk d p).payload = p := by
  cases h <;> rfl

theorem link_injective (h : WireForm c mk) {d e : Link} {p : List Byte} (heq : mk d p = mk e p) : d = e := by
  cases h <;> cases heq <;> rfl

theorem ne_append (h : WireForm c mk) (d : Link) (p x : List Byte) : mk d p ≠ .append x := by
  cases h <;> nofun

theorem arrivingBytes_eq (h : WireForm c mk) (d : Link) (p : List Byte) :
    arrivingBytes (mk d p) = if (mk d p).received = mk d p then (encode (mk d p)).getD [] else [] := by
  cases h <;> rfl

/-- A sent command is not what its receiver sees. -/
theorem received_send_ne (h : WireForm c mk) (p : List Byte) : (mk .send p).received ≠ mk .send p := by
  intro heq
  rw [h.received_eq] at heq
  exact Link.noConfusion (h.link_injective heq)

/-- A received command is. -/
@[simp] theorem received_recv (h : WireForm c mk) (chk : Byte) (p : List Byte) :
    (mk (.recv chk) p).received = mk (.recv chk) p := h.received_eq _ _

/-- A well-formed wire command has a payload that fits, and is what the command map gives for its code. -/
theorem wellFormed_iff (h : WireForm c mk) (d : Link) (p : List Byte) :
    (mk d p).wellFormed = true ↔ p.length ≤ 65535 ∧ ∀ e q, instrOfCommand c e q = mk e q := by
  cases h with
  | unnamed =>
    simp only [instrOfCommand_eq_unnamedCommand_iff, Instr.wellFormed, payloadFits, Bool.and_eq_true, decide_eq_true_eq]
    exact ⟨fun h => ⟨h.2, fun _ _ => h.1⟩, fun h => ⟨h.2 d p, h.1⟩⟩
  | _ => simp [Instr.wellFormed, payloadFits, instrOfCommand]

end WireForm

/-- The command map answers one of the nine forms with the given code. -/
theorem instrOfCommand_form (c : Byte) : ∃ mk, WireForm c mk ∧ ∀ d p, instrOfCommand c d p = mk d p := by
  simp only [instrOfCommand]
  split_ifs with h1 h2 h3 h4 h5 h6 h7 h8
  · exact ⟨_, h1 ▸ .startRecord, fun _ _ => rfl⟩
  · exact ⟨_, h2 ▸ .stopRecord, fun _ _ => rfl⟩
  · exact ⟨_, h3 ▸ .audioData, fun _ _ => rfl⟩
  · exact ⟨_, h4 ▸ .startPlay, fun _ _ => rfl⟩
  · exact ⟨_, h5 ▸ .stopPlay, fun _ _ => rfl⟩
  · exact ⟨_, h6 ▸ .handshake, fun _ _ => rfl⟩
  · exact ⟨_, h7 ▸ .ack, fun _ _ => rfl⟩
  · exact ⟨_, h8 ▸ .setFormat, fun _ _ => rfl⟩
  · exact ⟨_, .unnamed c, fun _ _ => rfl⟩

/-- Every instruction is a wire command or one of the seven operations. -/
theorem Instr.form_cases {motive : Instr → Prop} (wire : ∀ c mk, WireForm c mk → ∀ d p, motive (mk d p))
    (checksum : ∀ x, motive (.checksum x)) (encode : ∀ c p, motive (.encode c p)) (decode : ∀ x, motive (.decode x))
    (reset : motive .reset) (append : ∀ x, motive (.append x)) (parse : motive .parse) (drain : motive .drain)
    (i : Instr) : motive i := by
  cases i with
  | startRecord d p => exact wire _ _ .startRecord d p
  | stopRecord d p => exact wire _ _ .stopRecord d p
  | audioData d p => exact wire _ _ .audioData d p
  | startPlay d p => exact wire _ _ .startPlay d p
  | stopPlay d p => exact wire _ _ .stopPlay d p
  | handshake d p => exact wire _ _ .handshake d p
  | ack d p => exact wire _ _ .ack d p
  | setFormat d p => exact wire _ _ .setFormat d p
  | unnamedCommand c d p => exact wire _ _ (.unnamed c) d p
  | checksum x => exact checksum x
  | encode c p => exact encode c p
  | decode x => exact decode x
  | reset => exact reset
  | append x => exact append x
  | parse => exact parse
  | drain => exact drain

/-! ### The bytes of a wire command -/

theorem encodeCommand_of_fits (c : Byte) (d : Link) {p : List Byte} (h : p.length ≤ 65535) :
    encodeCommand c d p = some (frameBytes c p (d.checksum c p)) :=
  (encodeCommand_eq_some_iff c d p _).2 ⟨h, rfl⟩

theorem encodeCommand_eq_none_iff (c : Byte) (d : Link) (p : List Byte) :
    encodeCommand c d p = none ↔ 65535 < p.length := by
  simp [encodeCommand]

theorem encode_instrOfCommand (c : Byte) (d : Link) (p : List Byte) :
    encode (instrOfCommand c d p) = encodeCommand c d p := by
  obtain ⟨mk, hform, hmk⟩ := instrOfCommand_form c
  rw [hmk, hform.encode_eq]

/-- A laid-out frame is read as the command with its code, whatever checksum byte it carries. -/
theorem decodeWire_frameBytes (c : Byte) {p : List Byte} (chk : Byte) (h : p.length ≤ 65535) :
    decodeWire (frameBytes c p chk) = .ok (instrOfCommand c (.recv chk) p) := by
  have h6 : ¬ (frameBytes c p chk).length < 6 := by rw [frameBytes_length]; omega
  have hhead : ¬ (byteAt (frameBytes c p chk) 0 ≠ 0xAA ∨ byteAt (frameBytes c p chk) 1 ≠ 0x55) := by
    rintro (h0 | h1)
    · exact h0 rfl
    · exact h1 rfl
  rw [decodeWire_eq, if_neg h6, if_neg hhead, frameBytes_lengthField c p chk h, frameBytes_length, if_neg (not_not.2 rfl),
    frameBytes_checksum, frameBytes_payload, frameBytes_command]

/-- What the decoder accepts is a laid-out frame, read as the received command of its code. -/
theorem decodeWire_eq_ok {x : List Byte} {i : Instr} (h : decodeWire x = .ok i) :
    ∃ c mk p chk, WireForm c mk ∧ (∀ d q, instrOfCommand c d q = mk d q) ∧ p.length ≤ 65535
      ∧ x = frameBytes c p chk ∧ i = mk (.recv chk) p := by
  rw [decodeWire_eq] at h
  split_ifs at h with h6 hhead hlen
  obtain ⟨c, p, chk, rfl, hp⟩ :=
    exists_frameBytes ((headerAt_zero_iff x).2 (by simpa [not_or] using hhead)) (not_not.1 hlen)
  obtain ⟨mk, hform, hmk⟩ := instrOfCommand_form c
  refine ⟨c, mk, p, chk, hform, hmk, hp, rfl, ?_⟩
  rw [frameBytes_lengthField c p chk hp, frameBytes_checksum, frameBytes_payload, frameBytes_command, hmk] at h
  exact (Except.ok.inj h).symm

/-! ### The two ends of the link -/

theorem sendCommand_of_fits (c : Byte) {p : List Byte} (s : State) (h : p.length ≤ 65535) :
    sendCommand c p s = .next (s.pushWire (frameBytes c p (frameChecksum c p))) := by
  rw [sendCommand, encodeFrame_of_fits c h]

theorem sendCommand_of_oversize (c : Byte) {p : List Byte} (s : State) (h : 65535 < p.length) :
    sendCommand c p s = .refused (.encodeOversize p.length) := by
  rw [sendCommand, encodeFrame_of_oversize c h]

/-! ### The statements -/

/-- Settles O1: over the nine forms, the frame laid out is read back field by field. -/
theorem decodeOfEncodeIsReceivedInstr : Obligations.DecodeOfEncodeIsReceivedInstr := by
  intro i bytes hwf hbytes
  cases i using Instr.form_cases with
  | wire c mk hform d p =>
    obtain ⟨hp, hmk⟩ := (hform.wellFormed_iff d p).1 hwf
    rw [hform.encode_eq, encodeCommand_of_fits c d hp] at hbytes
    obtain rfl := Option.some.inj hbytes
    rw [decodeWire_frameBytes c _ hp, hmk, hform.received_eq]; rfl
  | _ => cases hbytes

/-- Settles O2: what the decoder accepts is a laid-out frame, and its command encodes to that frame. -/
theorem encodeOfDecodeIsSameBytes : Obligations.EncodeOfDecodeIsSameBytes := by
  intro i bytes h
  obtain ⟨c, mk, p, chk, hform, hmk, hp, rfl, rfl⟩ := decodeWire_eq_ok h
  refine ⟨(hform.wellFormed_iff _ p).2 ⟨hp, hmk⟩, ?_⟩
  rw [hform.encode_eq, encodeCommand_of_fits c _ hp]; rfl

/-- Settles O3: what the decoder accepts has bytes, and the operations have none. -/
theorem operationsHaveNoEncoding : Obligations.OperationsHaveNoEncoding := by
  intro i bytes h
  have hbytes : encode i ≠ none := by simp [(encodeOfDecodeIsSameBytes i bytes h).2]
  refine ⟨hbytes, ?_, ?_, ?_, ?_, ?_, ?_, ?_⟩
  all_goals
    intros
    rintro rfl
    exact hbytes rfl

/-- Settles O4: the decoder run on the five listings. -/
theorem knownFramesDecode : Obligations.KnownFramesDecode := by
  refine ⟨?_, ?_, ?_, ?_, ?_⟩ <;> rfl

/-- Settles O54: the four fields of the laid-out frame read back at their offsets. -/
theorem encodingExistsWhenPayloadFits : Obligations.EncodingExistsWhenPayloadFits := by
  intro c d p
  rw [encode_instrOfCommand]
  refine ⟨encodeCommand_eq_none_iff c d p, ?_⟩
  intro bytes hbytes
  obtain ⟨hp, rfl⟩ := (encodeCommand_eq_some_iff c d p bytes).1 hbytes
  exact ⟨⟨rfl, rfl⟩, frameBytes_command c p _, frameBytes_lengthField c p _ hp, frameBytes_payload c p _,
    frameBytes_length c p _⟩

/-- Every sent command hands its frame to the transport, or is refused. -/
theorem WireForm.sendsFrame {c : Byte} {mk : Link → List Byte → Instr} (h : WireForm c mk) :
    Statements.SendsFrame c mk := by
  intro p s
  rw [h.exec_eq]
  exact ⟨sendCommand_of_fits c s, sendCommand_of_oversize c s⟩

/-- Settles O33: the nine forms send alike. -/
theorem sendWritesTheFrame : Obligations.SendWritesTheFrame :=
  ⟨WireForm.startRecord.sendsFrame, WireForm.stopRecord.sendsFrame, WireForm.audioData.sendsFrame,
    WireForm.startPlay.sendsFrame, WireForm.stopPlay.sendsFrame, WireForm.handshake.sendsFrame,
    WireForm.ack.sendsFrame, WireForm.setFormat.sendsFrame, fun c => (WireForm.unnamed c).sendsFrame⟩

end Sys2Proof.Machine
end

section
/-! PROOFS. One parse attempt, 41_stream_parser R114, R125 to R128 and 40_codec R98: the search, the whole candidate, and what
more bytes at the tail do to an attempt. -/
namespace Sys2Proof.Machine

/-! ### The header search -/

/-- The search finds the lowest header pair, or there is none. -/
theorem findHeader_cases (b : List Byte) :
    (findHeader b = none ∧ ∀ i, ¬ headerAt b i) ∨ ∃ i, findHeader b = some i ∧ firstHeader b i := by
  by_cases h : ∃ i, headerAt b i
  · have hfirst : firstHeader b (Nat.find h) := ⟨Nat.find_spec h, fun _ => Nat.find_min h⟩
    exact .inr ⟨_, findHeader_of_firstHeader hfirst, hfirst⟩
  · have hnone : ∀ i, ¬ headerAt b i := not_exists.1 h
    exact .inl ⟨findHeader_eq_none hnone, hnone⟩

theorem findHeader_eq_some_iff {b : List Byte} {i : Nat} : findHeader b = some i ↔ firstHeader b i := by
  refine ⟨fun h => ?_, findHeader_of_firstHeader⟩
  rcases findHeader_cases b with ⟨hnone, -⟩ | ⟨j, hj, hfirst⟩
  · rw [hnone] at h; cases h
  · rw [hj] at h; exact Option.some.inj h ▸ hfirst

theorem findHeader_eq_none_iff {b : List Byte} : findHeader b = none ↔ ∀ i, ¬ headerAt b i := by
  refine ⟨fun h => ?_, findHeader_eq_none⟩
  rcases findHeader_cases b with ⟨-, hnone⟩ | ⟨j, hj, -⟩
  · exact hnone
  · rw [hj] at h; cases h

theorem headerAt_append {x : List Byte} {i : Nat} (h : headerAt x i) (g : List Byte) : headerAt (x ++ g) i := by
  obtain ⟨h0, h1⟩ := h
  have hi : i < x.length := (List.getElem?_eq_some_iff.1 h0).1
  have hi1 : i + 1 < x.length := (List.getElem?_eq_some_iff.1 h1).1
  exact ⟨by rw [List.getElem?_append_left hi, h0], by rw [List.getElem?_append_left hi1, h1]⟩

theorem headerAt_zero_of_append {x g : List Byte} (hx : 2 ≤ x.length) (h : headerAt (x ++ g) 0) : headerAt x 0 := by
  rwa [headerAt, List.getElem?_append_left (by omega), List.getElem?_append_left (by omega)] at h

theorem headerAt_drop {b : List Byte} {i : Nat} : headerAt (b.drop i) 0 ↔ headerAt b i := by
  simp [headerAt]

/-- Behind bytes that hold no header pair the lowest one is the frame's own: a pair astride the border would need its
first byte to be `55`. -/
theorem firstHeader_append {y f : List Byte} (hy : ∀ i, ¬ headerAt y i) (hf : headerAt f 0) :
    firstHeader (y ++ f) y.length := by
  obtain ⟨h0, h1⟩ := hf
  refine ⟨headerAt_drop.1 (by rw [List.drop_left]; exact ⟨h0, h1⟩), ?_⟩
  rintro j hj ⟨hj0, hj1⟩
  rw [List.getElem?_append_left hj] at hj0
  rcases Nat.lt_or_ge (j + 1) y.length with hin | hout
  · rw [List.getElem?_append_left hin] at hj1
    exact hy j ⟨hj0, hj1⟩
  · rw [List.getElem?_append_right hout, show j + 1 - y.length = 0 by omega, h0] at hj1
    exact absurd hj1 (by decide)

/-! ### An attempt at the head and one byte further -/

theorem parseBuf_at_head {skip : ResyncSkip} {b : List Byte} (h : headerAt b 0) : parseBuf skip b = parseAt skip b := by
  rw [parseBuf_of_header (findHeader_of_firstHeader ⟨h, nofun⟩), List.drop_zero]

/-- A byte that begins no header pair, with bytes behind it, cannot be seen. -/
theorem parseBuf_cons {skip : ResyncSkip} {x : Byte} {t : List Byte} (h : ¬ headerAt (x :: t) 0) (ht : t ≠ []) :
    parseBuf skip (x :: t) = parseBuf skip t := by
  have hfind : findHeader (x :: t) = (findHeader t).map (· + 1) := by rw [findHeader_cons, if_neg h]
  cases hft : findHeader t with
  | some i => rw [parseBuf_of_header hft, parseBuf_of_header (i := i + 1) (by rw [hfind, hft]; rfl), List.drop_succ_cons]
  | none =>
    have hlen : (x :: t).length - 1 = t.length - 1 + 1 := by
      have := List.length_pos_iff.2 ht
      rw [List.length_cons]; omega
    rw [parseBuf_of_none hft, parseBuf_of_none (by rw [hfind, hft]; rfl), hlen, List.drop_succ_cons]

/-- Bytes without a header pair weigh no more than the last of them, whatever follows. -/
theorem parseBuf_append_of_no_header {skip : ResyncSkip} {b : List Byte} (c : List Byte) (h : ∀ i, ¬ headerAt b i) :
    parseBuf skip (b ++ c) = parseBuf skip (b.drop (b.length - 1) ++ c) := by
  induction b with
  | nil => rfl
  | cons x t ih =>
    cases t with
    | nil => rfl
    | cons y t =>
      have hhead : ¬ headerAt (x :: (y :: t ++ c)) 0 := h 0
      rw [List.cons_append, parseBuf_cons hhead (by simp), ih fun i => h (i + 1)]; rfl

/-! ### A whole candidate (40 R98) -/

/-- With all the bytes of a candidate at hand, its checksum byte decides, and the bytes behind it are left. -/
theorem parseAt_candidate (skip : ResyncSkip) {x : List Byte} (g : List Byte)
    (hlen : x.length = le16 (byteAt x 3) (byteAt x 4) + 6) :
    parseAt skip (x ++ g) =
      if xorFold (slice x 2 (x.length - 1)) = byteAt x (x.length - 1) then (.frame (frameOf x), g)
      else (.corrupt, (x ++ g).drop skip.bytes) := by
  have hlow : byteAt (x ++ g) 3 = byteAt x 3 := byteAt_append_left x g 3 (by omega)
  have hhigh : byteAt (x ++ g) 4 = byteAt x 4 := byteAt_append_left x g 4 (by omega)
  have hlast : 5 + le16 (byteAt (x ++ g) 3) (byteAt (x ++ g) 4) = x.length - 1 := by rw [hlow, hhigh]; omega
  have htotal : 6 + le16 (byteAt (x ++ g) 3) (byteAt (x ++ g) 4) = x.length := by rw [hlow, hhigh]; omega
  have hwhole : 6 + le16 (byteAt (x ++ g) 3) (byteAt (x ++ g) 4) ≤ (x ++ g).length := by
    rw [htotal, List.length_append]; omega
  have hchk : byteAt (x ++ g) (x.length - 1) = byteAt x (x.length - 1) := byteAt_append_left x g _ (by omega)
  have hcovered : slice (x ++ g) 2 (x.length - 1) = slice x 2 (x.length - 1) := slice_append_left x g 2 _ (by omega)
  split
  case isTrue hx =>
    rw [parseAt_of_match hwhole (by rw [hlast, hcovered, hchk, hx]), hlast, htotal, List.drop_left,
      byteAt_append_left x g 2 (by omega), slice_append_left x g 5 _ (by omega)]; rfl
  case isFalse hx => exact parseAt_of_mismatch hwhole (by rw [hlast, hcovered, hchk]; exact hx)

/-- Bytes enough for the length field are a candidate and what stands behind it. -/
theorem exists_candidate {t : List Byte} (h : 6 + le16 (byteAt t 3) (byteAt t 4) ≤ t.length) :
    ∃ x g, t = x ++ g ∧ x.length = le16 (byteAt x 3) (byteAt x 4) + 6 := by
  obtain ⟨x, g, rfl, hx⟩ : ∃ x g, t = x ++ g ∧ x.length = 6 + le16 (byteAt t 3) (byteAt t 4) :=
    ⟨_, _, (List.take_append_drop _ t).symm, List.length_take_of_le h⟩
  refine ⟨x, g, rfl, ?_⟩
  rw [hx, byteAt_append_left x g 3 (by omega), byteAt_append_left x g 4 (by omega), Nat.add_comm]

theorem parseBuf_frame_append (skip : ResyncSkip) {x : List Byte} (g : List Byte) (h : isValidFrame x = true) :
    parseBuf skip (x ++ g) = (.frame (frameOf x), g) := by
  obtain ⟨-, hhead, hlen, hchk⟩ := (isValidFrame_iff x).1 h
  rw [parseBuf_at_head (headerAt_append hhead g), parseAt_candidate skip g hlen, if_pos hchk]

/-! ### More bytes at the tail (41 R122, R125) -/

/-- Whether an attempt waits: then the candidate is not whole and everything stays; otherwise it is whole. -/
theorem parseAt_wait_or_candidate {skip : ResyncSkip} {t t' : List Byte} {o : ParseOutcome} (h : parseAt skip t = (o, t')) :
    (o.isWait = true ∧ t' = t) ∨ (o.isWait = false ∧ 6 + le16 (byteAt t 3) (byteAt t 4) ≤ t.length) := by
  rcases parseAt_cases h with ⟨-, rfl, ht⟩ | ⟨-, -, rfl, ht⟩ | ⟨hlen, -, rfl, -⟩ | ⟨hlen, -, rfl, -⟩
  · exact .inl ⟨rfl, ht⟩
  · exact .inl ⟨rfl, ht⟩
  · exact .inr ⟨rfl, hlen⟩
  · exact .inr ⟨rfl, hlen⟩

/-- The verdict on a whole candidate does not depend on the bytes behind it. -/
theorem parseAt_append_of_done {skip : ResyncSkip} {t t' : List Byte} {o : ParseOutcome} (c : List Byte)
    (h : parseAt skip t = (o, t')) (ho : o.isWait = false) : parseAt skip (t ++ c) = (o, t' ++ c) := by
  rcases parseAt_wait_or_candidate h with ⟨hw, -⟩ | ⟨-, hlen⟩
  · rw [hw] at ho; cases ho
  · obtain ⟨x, g, rfl, hx⟩ := exists_candidate hlen
    have hskip : skip.bytes ≤ (x ++ g).length := by
      have := skip_bytes_le skip
      rw [List.length_append]; omega
    rw [parseAt_candidate skip g hx] at h
    rw [List.append_assoc, parseAt_candidate skip (g ++ c) hx, ← List.append_assoc, List.drop_append_of_le_length hskip]
    split_ifs at h ⊢ <;> cases h <;> rfl

theorem findHeader_drop_append {b : List Byte} {i : Nat} (h : findHeader b = some i) (c : List Byte) :
    (b ++ c).drop i = b.drop i ++ c :=
  List.drop_append_of_le_length (by have := findHeader_lt h; omega)

theorem parseBuf_append_of_done {skip : ResyncSkip} {b b' : List Byte} {o : ParseOutcome} (c : List Byte)
    (h : parseBuf skip b = (o, b')) (ho : o.isWait = false) : parseBuf skip (b ++ c) = (o, b' ++ c) := by
  rcases parseBuf_cases h with ⟨-, rfl, -⟩ | ⟨i, hi, hat⟩
  · cases ho
  · rw [parseBuf_of_header (findHeader_append hi c), findHeader_drop_append hi, parseAt_append_of_done c hat ho]

/-- What an attempt that waits has dropped cannot be seen in any later one. -/
theorem parseBuf_append_of_wait {skip : ResyncSkip} {b b' : List Byte} {o : ParseOutcome} (c : List Byte)
    (h : parseBuf skip b = (o, b')) (ho : o.isWait = true) : parseBuf skip (b ++ c) = parseBuf skip (b' ++ c) := by
  rcases parseBuf_cases h with ⟨hnone, -, rfl⟩ | ⟨i, hi, hat⟩
  · exact parseBuf_append_of_no_header c (findHeader_eq_none_iff.1 hnone)
  · rcases parseAt_wait_or_candidate hat with ⟨-, rfl⟩ | ⟨hw, -⟩
    · have hhead : headerAt (b.drop i ++ c) 0 := headerAt_append (headerAt_drop.2 (findHeader_eq_some_iff.1 hi).1) c
      rw [parseBuf_of_header (findHeader_append hi c), findHeader_drop_append hi, parseBuf_at_head hhead]
    · rw [hw] at ho; cases ho

theorem parseBuf_of_wait {skip : ResyncSkip} {b b' : List Byte} {o : ParseOutcome} (h : parseBuf skip b = (o, b'))
    (ho : o.isWait = true) : parseBuf skip b' = (o, b') := by
  have := parseBuf_append_of_wait [] h ho
  rw [List.append_nil, List.append_nil, h] at this
  exact this.symm

/-! ### The phases (10 R31) -/

theorem startsWithHeader_iff (b : List Byte) : startsWithHeader b = true ↔ headerAt b 0 := by
  cases b <;> simp [startsWithHeader, headerAt, List.head?_eq_getElem?]

theorem headerAt_two_le {b : List Byte} (h : headerAt b 0) : 2 ≤ b.length :=
  (List.getElem?_eq_some_iff.1 h.2).1

theorem inHunt_iff (b : List Byte) : inHunt b = true ↔ b.length ≤ 1 := decide_eq_true_iff

theorem inHdr_iff (b : List Byte) : inHdr b = true ↔ headerAt b 0 ∧ b.length < 6 := by
  simp only [inHdr, Bool.and_eq_true, decide_eq_true_eq, startsWithHeader_iff]
  constructor
  · rintro ⟨⟨hhead, -⟩, hlen⟩; exact ⟨hhead, by omega⟩
  · rintro ⟨hhead, hlen⟩; exact ⟨⟨hhead, headerAt_two_le hhead⟩, by omega⟩

theorem inBody_iff (b : List Byte) :
    inBody b = true ↔ headerAt b 0 ∧ 6 ≤ b.length ∧ b.length < 6 + le16 (byteAt b 3) (byteAt b 4) := by
  simp only [inBody, Bool.and_eq_true, decide_eq_true_eq, startsWithHeader_iff, and_assoc]

theorem isQuiescent_iff {skip : ResyncSkip} {b : List Byte} :
    isQuiescent skip b = true ↔ ∃ o, parseBuf skip b = (o, b) ∧ o.isWait = true := by
  simp only [isQuiescent, Bool.and_eq_true, decide_eq_true_eq]
  constructor
  · rintro ⟨hw, hb⟩; exact ⟨_, Prod.ext rfl hb, hw⟩
  · rintro ⟨o, h, hw⟩; rw [h]; exact ⟨hw, rfl⟩

theorem isQuiescent_iff_phase (skip : ResyncSkip) (b : List Byte) :
    isQuiescent skip b = true ↔ inHunt b = true ∨ inHdr b = true ∨ inBody b = true := by
  rw [isQuiescent_iff, inHunt_iff, inHdr_iff, inBody_iff]
  constructor
  · rintro ⟨o, h, hw⟩
    rcases parseBuf_cases h with ⟨-, -, hb⟩ | ⟨i, hi, hat⟩
    · have := congrArg List.length hb
      rw [List.length_drop] at this
      exact .inl (by omega)
    · rcases parseAt_wait_or_candidate hat with ⟨-, hb⟩ | ⟨hd, -⟩
      · rw [← hb] at hat
        have hhead : headerAt b 0 := by
          rw [hb]; exact headerAt_drop.2 (findHeader_eq_some_iff.1 hi).1
        rcases parseAt_cases hat with ⟨h6, -⟩ | ⟨h6, hbody, -⟩ | ⟨-, -, rfl, -⟩ | ⟨-, -, rfl, -⟩
        · exact .inr (.inl ⟨hhead, h6⟩)
        · exact .inr (.inr ⟨hhead, h6, hbody⟩)
        · cases hw
        · cases hw
      · rw [hw] at hd; cases hd
  · rintro (h1 | ⟨hhead, h6⟩ | ⟨hhead, h6, hbody⟩)
    · have hnone : ∀ i, ¬ headerAt b i := fun i hi => by
        have := (List.getElem?_eq_some_iff.1 hi.2).1
        omega
      refine ⟨.noHeader, ?_, rfl⟩
      rw [parseBuf_of_none (findHeader_eq_none hnone), show b.length - 1 = 0 by omega, List.drop_zero]
    · exact ⟨.needMin, by rw [parseBuf_at_head hhead, parseAt_of_short h6], rfl⟩
    · exact ⟨.needBody, by rw [parseBuf_at_head hhead, parseAt_of_incomplete h6 hbody], rfl⟩

/-! ### The statements -/

/-- Settles O15. -/
theorem findHeaderIsLowest : Obligations.FindHeaderIsLowest :=
  fun _ => ⟨fun _ => findHeader_eq_some_iff, findHeader_eq_none_iff⟩

/-- Settles O18: the buffer a wait leaves is one on which the same attempt waits. -/
theorem waitIsIdempotent : Obligations.WaitIsIdempotent :=
  fun _ _ hw => parseBuf_of_wait rfl hw

/-- Settles O19: the phases are told apart by length and head, and an attempt waits in each of them only. -/
theorem quiescentIffOnePhase : Obligations.QuiescentIffOnePhase := by
  intro skip b
  refine ⟨isQuiescent_iff_phase skip b, ?_, ?_, ?_⟩ <;> simp only [inHunt_iff, inHdr_iff, inBody_iff]
  · rintro ⟨h1, hhead, -⟩
    have := headerAt_two_le hhead
    omega
  · rintro ⟨h1, -, h6, -⟩; omega
  · rintro ⟨⟨-, h5⟩, -, h6, -⟩; omega

/-- Settles O20: both judge the candidate by its checksum byte alone. -/
theorem parseAgreesWithDecode : Obligations.ParseAgreesWithDecode := by
  rintro skip b n hhead rfl hn
  obtain ⟨x, g, rfl, hx⟩ := exists_candidate hn
  have h6 : 6 ≤ x.length := by omega
  have hn' : 6 + le16 (byteAt (x ++ g) 3) (byteAt (x ++ g) 4) = x.length := by
    rw [byteAt_append_left x g 3 (by omega), byteAt_append_left x g 4 (by omega)]; omega
  have hhead' : headerAt x 0 := headerAt_zero_of_append (by omega) hhead
  rw [hn', List.take_left, parseBuf_at_head hhead, parseAt_candidate skip g hx, decodeFrame_tests,
    if_neg (Nat.not_lt.2 h6), if_neg (not_not.2 hhead'), if_neg (not_not.2 hx)]
  by_cases hchk : xorFold (slice x 2 (x.length - 1)) = byteAt x (x.length - 1)
  · simp [hchk]
  · simp [hchk]

/-- Settles O21: the candidate at the lowest header pair is the frame's own bytes. -/
theorem yieldedFrameWasContiguous : Obligations.YieldedFrameWasContiguous := by
  intro skip b b' f h
  rcases parseBuf_cases h with ⟨-, hno, -⟩ | ⟨i, hi, hat⟩
  · cases hno
  · obtain ⟨hfirst, hlow⟩ := findHeader_eq_some_iff.1 hi
    rcases parseAt_wait_or_candidate hat with ⟨hw, -⟩ | ⟨-, hlen⟩
    · cases hw
    · obtain ⟨x, g, hxg, hx⟩ := exists_candidate hlen
      have hhead : headerAt x 0 := headerAt_zero_of_append (by omega) (hxg ▸ headerAt_drop.2 hfirst)
      rw [hxg, parseAt_candidate skip g hx] at hat
      split_ifs at hat with hchk
      case neg => cases hat
      obtain ⟨rfl, rfl⟩ : frameOf x = f ∧ g = b' := by simpa using hat
      have hvalid : isValidFrame x = true := (isValidFrame_iff x).2 ⟨by omega, hhead, hx, hchk⟩
      refine ⟨b.take i, ?_, ?_, fun j hj => hlow j (Nat.lt_of_lt_of_le hj (List.length_take_le _ _))⟩
      · rw [(frameOf_bytes hvalid).1, List.append_assoc, ← hxg, List.take_append_drop]
      · rw [(frameOf_bytes hvalid).1]; exact hvalid

/-- Settles O22. -/
theorem validFrameThenGarbage : Obligations.ValidFrameThenGarbage :=
  fun skip _ g h => parseBuf_frame_append skip g h

/-- Settles O23: either skip lands behind the corrupt frame's header, where the next header pair is the valid frame's. -/
theorem resynchronisesToNextFrame : Obligations.ResynchronisesToNextFrame := by
  intro skip x f hhead h6 hlen hchk hno hf
  have hlen' : x.length = le16 (byteAt x 3) (byteAt x 4) + 6 := by omega
  have hbad := (checksum_matches_iff h6).not.2 hchk
  have hnone : ∀ i, ¬ headerAt (x.drop skip.bytes) i := by
    cases skip with
    | two => exact hno
    | one =>
      rintro (_ | i) hi
      · have h55 := hhead.2
        have hAA : x[1]? = some 0xAA := (headerAt_drop.1 hi).1
        rw [hAA] at h55
        exact absurd h55 (by decide)
      · exact hno i (by simpa [headerAt, ResyncSkip.bytes, Nat.add_comm, Nat.add_left_comm] using hi)
  have hskip : skip.bytes ≤ x.length := by
    have := skip_bytes_le skip
    omega
  have hnext : findHeader (x.drop skip.bytes ++ f) = some (x.drop skip.bytes).length :=
    findHeader_of_firstHeader (firstHeader_append hnone ((isValidFrame_iff f).1 hf).2.1)
  refine ⟨x.drop skip.bytes ++ f, ?_, ?_⟩
  · rw [parseBuf_at_head (headerAt_append hhead f), parseAt_candidate skip f hlen', if_neg hbad,
      List.drop_append_of_le_length hskip]
  · rw [parseBuf_of_header hnext, List.drop_left, ← parseBuf_at_head ((isValidFrame_iff f).1 hf).2.1]
    simpa using parseBuf_frame_append skip [] hf

end Sys2Proof.Machine
end

section
/-! PROOFS. The drain loop, 41_stream_parser R120, R121, R125, R127, R129 and 20_memory R49, R55: how many attempts it takes,
what it leaves, where its frames stood, and what it makes of a stream cut into chunks. -/
namespace Sys2Proof.Machine

/-! ### Turns of the loop -/

/-- Induction along a drain: an attempt yields a frame, or is corrupt, and leaves fewer bytes, or it waits. -/
theorem drain_induction {skip : ResyncSkip} {motive : List Byte → Prop}
    (frame : ∀ b f b', parseBuf skip b = (.frame f, b') → motive b' → motive b)
    (corrupt : ∀ b b', parseBuf skip b = (.corrupt, b') → motive b' → motive b)
    (wait : ∀ b o b', parseBuf skip b = (o, b') → o.isWait = true → motive b) (b : List Byte) : motive b := by
  induction hn : b.length using Nat.strong_induction_on generalizing b with
  | _ n ih =>
    obtain ⟨o, b', h⟩ : ∃ o b', parseBuf skip b = (o, b') := ⟨_, _, rfl⟩
    have hmotive : o.isWait = false → motive b' := fun ho => by
      have hless := parseBuf_shorter h ho
      have hskip := skip_bytes_pos skip
      exact ih b'.length (by omega) b' rfl
    cases o with
    | frame f => exact frame b f b' h (hmotive rfl)
    | corrupt => exact corrupt b b' h (hmotive rfl)
    | noHeader => exact wait b _ b' h rfl
    | needMin => exact wait b _ b' h rfl
    | needBody => exact wait b _ b' h rfl

/-- A drain sees of a buffer only its first attempt. -/
theorem drainBuf_congr (p : Params) {b c : List Byte} (h : parseBuf p.resyncSkip b = parseBuf p.resyncSkip c) :
    drainBuf p b = drainBuf p c := by
  obtain ⟨o, c', hc⟩ : ∃ o c', parseBuf p.resyncSkip c = (o, c') := ⟨_, _, rfl⟩
  rw [drainBuf_turn p (h.trans hc), drainBuf_turn p hc]

theorem drainBuf_of_wait (p : Params) {b b' : List Byte} {o : ParseOutcome} (h : parseBuf p.resyncSkip b = (o, b'))
    (ho : o.isWait = true) : drainBuf p b = ([], b') := by
  rw [drainBuf_turn p h, drainTurn_of_wait ho]

theorem drainBuf_of_frame (p : Params) {b b' : List Byte} {f : Frame} (h : parseBuf p.resyncSkip b = (.frame f, b')) :
    drainBuf p b = (f :: (drainBuf p b').1, (drainBuf p b').2) :=
  drainBuf_turn p h

theorem drainBuf_of_corrupt {p : Params} (hp : p.drainPolicy = .quiescent) {b b' : List Byte}
    (h : parseBuf p.resyncSkip b = (.corrupt, b')) : drainBuf p b = drainBuf p b' :=
  (drainBuf_turn p h).trans (if_pos hp)

/-- At `Corrupt` a drain goes on or ends, as its policy says. -/
theorem drainBuf_of_corrupt_cases (p : Params) {b b' : List Byte} (h : parseBuf p.resyncSkip b = (.corrupt, b')) :
    drainBuf p b = drainBuf p b' ∨ drainBuf p b = ([], b') := by
  rw [drainBuf_turn p h]
  exact ite_eq_or_eq _ _ _

theorem drainBuf_suffix (p : Params) (b : List Byte) : (drainBuf p b).2 <:+ b := by
  induction b using drain_induction (skip := p.resyncSkip) with
  | frame b f b' h ih => rw [drainBuf_of_frame p h]; exact ih.trans (parseBuf_suffix h)
  | corrupt b b' h ih =>
    rcases drainBuf_of_corrupt_cases p h with hd | hd <;> rw [hd]
    · exact ih.trans (parseBuf_suffix h)
    · exact parseBuf_suffix h
  | wait b o b' h ho => rw [drainBuf_of_wait p h ho]; exact parseBuf_suffix h

/-! ### What a drain leaves -/

theorem isQuiescent_of_wait {skip : ResyncSkip} {b b' : List Byte} {o : ParseOutcome} (h : parseBuf skip b = (o, b'))
    (ho : o.isWait = true) : isQuiescent skip b' = true :=
  isQuiescent_iff.2 ⟨o, parseBuf_of_wait h ho, ho⟩

theorem drainBuf_quiescent {p : Params} (hp : p.drainPolicy = .quiescent) (b : List Byte) :
    isQuiescent p.resyncSkip (drainBuf p b).2 = true := by
  induction b using drain_induction (skip := p.resyncSkip) with
  | frame b f b' h ih => rwa [drainBuf_of_frame p h]
  | corrupt b b' h ih => rwa [drainBuf_of_corrupt hp h]
  | wait b o b' h ho => rw [drainBuf_of_wait p h ho]; exact isQuiescent_of_wait h ho

theorem drainBuf_of_isQuiescent (p : Params) {b : List Byte} (h : isQuiescent p.resyncSkip b = true) :
    drainBuf p b = ([], b) := by
  obtain ⟨o, hb, ho⟩ := isQuiescent_iff.1 h
  exact drainBuf_of_wait p hb ho

/-- The most a quiescent buffer holds is a largest frame but for one byte (41 R130). -/
theorem length_le_of_isQuiescent {skip : ResyncSkip} {b : List Byte} (h : isQuiescent skip b = true) :
    b.length ≤ 65540 := by
  rcases (isQuiescent_iff_phase skip b).1 h with hunt | hdr | body
  · have := (inHunt_iff b).1 hunt
    omega
  · obtain ⟨-, hlen⟩ := (inHdr_iff b).1 hdr
    omega
  · obtain ⟨-, -, hlen⟩ := (inBody_iff b).1 body
    have := le16_le (byteAt b 3) (byteAt b 4)
    omega

/-! ### Where the frames of a drain stood (20 R49) -/

/-- `FramesIn fs b rest`: in `b` stand the valid bytes of the frames `fs`, one after the other with dropped bytes before
each, and then, behind more dropped bytes, `rest`. -/
inductive FramesIn : List Frame → List Byte → List Byte → Prop where
  | rest (gone b : List Byte) : FramesIn [] (gone ++ b) b
  | frame (gone : List Byte) {f : Frame} {fs : List Frame} {b c : List Byte} (valid : isValidFrame f.bytes = true)
      (behind : FramesIn fs b c) : FramesIn (f :: fs) (gone ++ f.bytes ++ b) c

theorem FramesIn.of_suffix {fs : List Frame} {a b c : List Byte} (h : FramesIn fs b c) (hab : b <:+ a) :
    FramesIn fs a c := by
  obtain ⟨gone, rfl⟩ := hab
  cases h with
  | rest g => rw [← List.append_assoc]; exact .rest _ _
  | frame g valid behind =>
    rw [← List.append_assoc, ← List.append_assoc]; exact .frame _ valid behind

theorem FramesIn.valid {fs : List Frame} {b c : List Byte} (h : FramesIn fs b c) :
    ∀ f ∈ fs, isValidFrame f.bytes = true := by
  induction h with
  | rest => nofun
  | frame _ valid _ ih => exact List.forall_mem_cons.2 ⟨valid, ih⟩

theorem FramesIn.gaps {fs : List Frame} {b c : List Byte} (h : FramesIn fs b c) :
    ∃ (gaps : List (List Byte)) (last : List Byte), gaps.length = fs.length
      ∧ b = (List.zipWith (fun g f => g ++ Frame.bytes f) gaps fs).flatten ++ last ++ c := by
  induction h with
  | rest gone b => exact ⟨[], gone, rfl, rfl⟩
  | frame gone valid behind ih =>
    obtain ⟨gaps, last, hlen, hb⟩ := ih
    exact ⟨gone :: gaps, last, by simp [hlen], by simp [hb]⟩

theorem drainBuf_framesIn (p : Params) (b : List Byte) : FramesIn (drainBuf p b).1 b (drainBuf p b).2 := by
  induction b using drain_induction (skip := p.resyncSkip) with
  | frame b f b' h ih =>
    obtain ⟨gone, rfl, hvalid, -⟩ := yieldedFrameWasContiguous p.resyncSkip b b' f h
    rw [drainBuf_of_frame p h]
    exact .frame gone hvalid ih
  | corrupt b b' h ih =>
    rcases drainBuf_of_corrupt_cases p h with hd | hd <;> rw [hd]
    · exact ih.of_suffix (parseBuf_suffix h)
    · exact .of_suffix (.rest [] b') (parseBuf_suffix h)
  | wait b o b' h ho => rw [drainBuf_of_wait p h ho]; exact .of_suffix (.rest [] b') (parseBuf_suffix h)

/-! ### The skip count (41 R129) -/

/-- Behind a header, dropping either of its bytes or both is the same to a drain: the second begins no header pair. -/
theorem drainBuf_drop_skip (p : Params) (skip : ResyncSkip) {t : List Byte} (hhead : headerAt t 0) (hlen : 3 ≤ t.length) :
    drainBuf p (t.drop skip.bytes) = drainBuf p (t.drop 2) := by
  cases skip with
  | two => rfl
  | one =>
    match t, hlen with
    | x :: y :: z :: t, _ =>
      obtain rfl : y = 0x55 := Option.some.inj hhead.2
      have hno : ¬ headerAt (0x55 :: z :: t) 0 := fun h => absurd (Option.some.inj h.1) (by decide)
      exact drainBuf_congr p (parseBuf_cons hno (by simp))

/-- An attempt that is not corrupt does not use the skip count. -/
theorem parseBuf_other_skip {skip : ResyncSkip} (skip' : ResyncSkip) {b b' : List Byte} {o : ParseOutcome}
    (h : parseBuf skip b = (o, b')) (ho : o ≠ .corrupt) : parseBuf skip' b = (o, b') := by
  rcases parseBuf_cases h with ⟨hnone, rfl, rfl⟩ | ⟨i, hi, hat⟩
  · exact parseBuf_of_none hnone
  · rw [parseBuf_of_header hi]
    rcases parseAt_cases hat with ⟨h6, rfl, rfl⟩ | ⟨h6, hbody, rfl, rfl⟩ | ⟨hlen, hchk, rfl, rfl⟩ | ⟨-, -, rfl, -⟩
    · exact parseAt_of_short h6
    · exact parseAt_of_incomplete h6 hbody
    · exact parseAt_of_match hlen hchk
    · exact absurd rfl ho

/-- A corrupt attempt drops the skip count at a header. -/
theorem parseBuf_eq_corrupt {skip : ResyncSkip} {b b' : List Byte} (h : parseBuf skip b = (.corrupt, b')) :
    ∃ t, headerAt t 0 ∧ 3 ≤ t.length ∧ ∀ skip' : ResyncSkip, parseBuf skip' b = (.corrupt, t.drop skip'.bytes) := by
  rcases parseBuf_cases h with ⟨-, ho, -⟩ | ⟨i, hi, hat⟩
  · cases ho
  · rcases parseAt_cases hat with ⟨-, ho, -⟩ | ⟨-, -, ho, -⟩ | ⟨-, -, ho, -⟩ | ⟨hlen, hchk, -, -⟩
    · cases ho
    · cases ho
    · cases ho
    · refine ⟨b.drop i, headerAt_drop.2 (findHeader_eq_some_iff.1 hi).1, by omega, fun skip' => ?_⟩
      rw [parseBuf_of_header hi, parseAt_of_mismatch hlen hchk]

theorem drainBuf_skip_invisible {p q : Params} (hp : p.drainPolicy = .quiescent) (hq : q.drainPolicy = .quiescent)
    (b : List Byte) : drainBuf p b = drainBuf q b := by
  induction b using drain_induction (skip := p.resyncSkip) with
  | frame b f b' h ih => rw [drainBuf_of_frame p h, drainBuf_of_frame q (parseBuf_other_skip _ h nofun), ih]
  | corrupt b b' h ih =>
    obtain ⟨t, hhead, hlen, hall⟩ := parseBuf_eq_corrupt h
    obtain rfl : t.drop p.resyncSkip.bytes = b' := by simpa [hall] using h
    rw [drainBuf_of_corrupt hp h, ih, drainBuf_of_corrupt hq (hall _), drainBuf_drop_skip q _ hhead hlen,
      drainBuf_drop_skip q _ hhead hlen]
  | wait b o b' h ho =>
    have h' : parseBuf q.resyncSkip b = (o, b') := parseBuf_other_skip _ h (by rintro rfl; cases ho)
    rw [drainBuf_of_wait p h ho, drainBuf_of_wait q h' ho]

/-! ### A stream in chunks (20 R55) -/

/-- Draining part of a stream first, under either policy, changes nothing for a quiescent drain of all of it. -/
theorem drainBuf_append {p l : Params} (hp : p.drainPolicy = .quiescent) (hskip : l.resyncSkip = p.resyncSkip)
    (b c : List Byte) :
    drainBuf p (b ++ c) =
      ((drainBuf l b).1 ++ (drainBuf p ((drainBuf l b).2 ++ c)).1, (drainBuf p ((drainBuf l b).2 ++ c)).2) := by
  induction b using drain_induction (skip := p.resyncSkip) with
  | frame b f b' h ih =>
    rw [drainBuf_of_frame p (parseBuf_append_of_done c h rfl), drainBuf_of_frame l (hskip ▸ h), ih]; rfl
  | corrupt b b' h ih =>
    rw [drainBuf_of_corrupt hp (parseBuf_append_of_done c h rfl)]
    rcases drainBuf_of_corrupt_cases l (hskip ▸ h) with hd | hd <;> rw [hd]
    · exact ih
    · rfl
  | wait b o b' h ho =>
    rw [drainBuf_of_wait l (hskip ▸ h) ho, drainBuf_congr p (parseBuf_append_of_wait c h ho)]; rfl

/-- Chunk by chunk under either policy, and then to quiescence, is the whole stream at once. -/
theorem feedChunks_drain {p l : Params} (hp : p.drainPolicy = .quiescent) (hskip : l.resyncSkip = p.resyncSkip)
    (b : List Byte) (cs : List (List Byte)) :
    drainBuf p (b ++ cs.flatten) =
      ((feedChunks l b cs).1 ++ (drainBuf p (feedChunks l b cs).2).1, (drainBuf p (feedChunks l b cs).2).2) := by
  induction cs generalizing b with
  | nil => simp [feedChunks]
  | cons c cs ih =>
    have hc := drainBuf_append hp hskip (b ++ c) cs.flatten
    rw [List.append_assoc, ih] at hc
    rw [List.flatten_cons, hc]
    simp [feedChunks, bufAppend]

theorem feedChunks_quiescent {p : Params} (hp : p.drainPolicy = .quiescent) {b : List Byte}
    (hb : isQuiescent p.resyncSkip b = true) (cs : List (List Byte)) :
    isQuiescent p.resyncSkip (feedChunks p b cs).2 = true := by
  induction cs generalizing b with
  | nil => exact hb
  | cons c cs ih => exact ih (drainBuf_quiescent hp _)

/-- From a quiescent buffer, every chunk drained to quiescence gives what one drain of the whole stream gives. -/
theorem feedChunks_eq_drainBuf {p : Params} (hp : p.drainPolicy = .quiescent) {b : List Byte}
    (hb : isQuiescent p.resyncSkip b = true) (cs : List (List Byte)) :
    feedChunks p b cs = drainBuf p (b ++ cs.flatten) := by
  rw [feedChunks_drain hp rfl, drainBuf_of_isQuiescent p (feedChunks_quiescent hp hb cs), List.append_nil]

/-! ### The statements -/

/-- Settles O25: an attempt that goes on takes a skip off the length, and so one off the quotient. -/
theorem drainEndsWithinBound : Obligations.DrainEndsWithinBound := by
  intro p b k hk
  induction k generalizing b with
  | zero => exact absurd hk (Nat.not_succ_le_zero _)
  | succ k ih =>
    obtain ⟨o, b', h⟩ : ∃ o b', parseBuf p.resyncSkip b = (o, b') := ⟨_, _, rfl⟩
    rw [drainFrom_succ p k h, drainBuf_turn p h]
    cases ho : o.isWait with
    | true => rw [drainTurn_of_wait ho, drainTurn_of_wait ho]
    | false =>
      have hquot : b'.length / p.resyncSkip.bytes + 1 ≤ b.length / p.resyncSkip.bytes := by
        rw [← Nat.add_div_right _ (skip_bytes_pos p.resyncSkip)]
        exact Nat.div_le_div_right (parseBuf_shorter h ho)
      rw [ih b' (hquot.trans (Nat.le_of_succ_le_succ hk))]

/-- Settles O26. -/
theorem drainLeavesQuiescent : Obligations.DrainLeavesQuiescent :=
  fun _ b hp => drainBuf_quiescent hp b

/-- Settles O28: the gaps are read off `FramesIn`. -/
theorem drainedFramesInStreamOrder : Obligations.DrainedFramesInStreamOrder := by
  intro p b
  have hin := drainBuf_framesIn p b
  obtain ⟨gaps, last, hlen, hb⟩ := hin.gaps
  exact ⟨gaps, last, hlen, hb, hin.valid⟩

/-- Settles O32. -/
theorem skipCountIsInvisible : Obligations.SkipCountIsInvisible :=
  fun _ _ b hp hq => drainBuf_skip_invisible hp hq b

end Sys2Proof.Machine
end

section
/-! PROOFS. What an instruction does to the state, 10_state R20, R27 to R29, 42_wire_commands R140 to R150 and 60_exceptions
R180: the effect of each, what it leaves unchanged, when it stops, and that the host's state has no part in it. -/
namespace Sys2Proof.Machine

/-! ### The dispatcher in closed form (42 R150) -/

/-- What a frame adds to the accumulator. -/
def Frame.audio (f : Frame) : List Byte := if f.command = 0x03 then f.payload else []

/-- What the dispatcher reports of a frame that comes when the accumulator is `a`. -/
def Frame.report (a : List Byte) (f : Frame) : Observation :=
  if f.command = 0x03 then .progress (a ++ f.payload).length
  else if f.command = 0x07 then .acknowledged f.payload.head?
  else .notRecognized f.command

/-- The reports of frames dispatched one after the other. -/
def reports : List Byte → List Frame → List Observation
  | _, [] => []
  | a, f :: fs => f.report a :: reports (a ++ f.audio) fs

theorem reports_append (a : List Byte) (fs gs : List Frame) :
    reports a (fs ++ gs) = reports a fs ++ reports (a ++ fs.flatMap Frame.audio) gs := by
  induction fs generalizing a with
  | nil => simp [reports]
  | cons f fs ih => simp [reports, ih]

theorem dispatch_eq (s : State) (f : Frame) :
    dispatch s f = { s with
      accum := s.accum ++ f.audio
      observations := s.observations ++ [f.report s.accum] } := by
  rw [dispatch, Frame.audio, Frame.report]
  split_ifs
  · rfl
  · rw [List.append_nil]; rfl
  · rw [List.append_nil]; rfl

/-! ### Effects -/

/-- What an instruction leaves behind: the buffer after it, the results it adds, the frames it yields to the dispatcher, and
the bytes it hands to the transport. -/
structure Effect where
  buf : List Byte
  results : List Result := []
  frames : List Frame := []
  sent : List Byte := []

/-- The state after an effect. -/
def State.apply (s : State) (e : Effect) : State :=
  { s with
    buf := e.buf
    results := s.results ++ e.results
    wireOut := s.wireOut ++ e.sent
    accum := s.accum ++ e.frames.flatMap Frame.audio
    observations := s.observations ++ reports s.accum e.frames }

theorem dispatchAll_eq (s : State) (fs : List Frame) : dispatchAll s fs = s.apply { buf := s.buf, frames := fs } := by
  induction fs generalizing s with
  | nil => simp [dispatchAll, State.apply, reports]
  | cons f fs ih =>
    have hstep : dispatchAll s (f :: fs) = dispatchAll (dispatch s f) fs := rfl
    rw [hstep, ih, dispatch_eq]
    simp [State.apply, reports]

theorem setBuf_eq_apply (s : State) (b : List Byte) : s.setBuf b = s.apply { buf := b } := by
  simp [State.setBuf, State.apply, reports]

theorem pushResult_eq_apply (s : State) (r : Result) : s.pushResult r = s.apply { buf := s.buf, results := [r] } := by
  simp [State.pushResult, State.apply, reports]

theorem pushWire_eq_apply (s : State) (x : List Byte) : s.pushWire x = s.apply { buf := s.buf, sent := x } := by
  simp [State.pushWire, State.apply, reports]

/-- The effect of one attempt. -/
def parseEffect (p : Params) (b : List Byte) : Effect :=
  { buf := (parseBuf p.resyncSkip b).2
    results := [.parsed (parseBuf p.resyncSkip b).1]
    frames := (parseBuf p.resyncSkip b).1.yielded }

/-- The effect of a drain. -/
def drainEffect (p : Params) (b : List Byte) : Effect :=
  { buf := (drainBuf p b).2
    results := [.drained (drainBuf p b).1]
    frames := (drainBuf p b).1 }

theorem parseOnce_eq (s : State) : parseOnce s = s.apply (parseEffect s.params s.buf) := by
  rw [parseOnce, dispatchAll_eq]
  simp [State.apply, parseEffect]

theorem drainAll_eq (s : State) : drainAll s = s.apply (drainEffect s.params s.buf) := by
  rw [drainAll, dispatchAll_eq]
  simp [State.apply, drainEffect]

theorem drainAll_setBuf (s : State) (b : List Byte) : drainAll (s.setBuf b) = s.apply (drainEffect s.params b) := by
  rw [drainAll_eq]; rfl

/-! ### ENCODE, APPEND, FEED and reception: when they complete, when they stop -/

theorem exec_encode_eq_next_iff {c : Byte} {p : List Byte} {s t : State} :
    exec (.encode c p) s = .next t ↔
      p.length ≤ 65535 ∧ t = s.pushResult (.encoded (frameBytes c p (frameChecksum c p))) := by
  rcases Nat.lt_or_ge 65535 p.length with hover | hp
  · simp [exec_encode_of_oversize c s hover, hover]
  · simp [exec_encode_of_fits c s hp, hp, eq_comm]

theorem fits_or_overflow (s : State) (n : Nat) :
    fits s n ∨ ∃ cap, s.params.bufCap = some cap ∧ cap < s.buf.length + n := by
  by_cases h : fits s n
  · exact .inl h
  · simp only [fits, not_forall, not_le] at h
    obtain ⟨cap, hcap, hlt⟩ := h
    exact .inr ⟨cap, hcap, hlt⟩

theorem fits_congr {s t : State} (hbuf : s.buf = t.buf) (hparams : s.params = t.params) (n : Nat) :
    fits s n ↔ fits t n := by
  simp only [fits, hbuf, hparams]

theorem exec_append_eq_next_iff {c : List Byte} {s t : State} :
    exec (.append c) s = .next t ↔ fits s c.length ∧ t = s.setBuf (s.buf ++ c) := by
  rcases fits_or_overflow s c.length with hfits | ⟨cap, hcap, hover⟩
  · simp [exec_append_of_fits hfits, hfits, eq_comm]
  · have hno : ¬ fits s c.length := fun hfits => absurd (hfits cap hcap) (by omega)
    simp [exec_append_of_overflow hcap hover, hno]

theorem exec_append_eq_fault_iff {c : List Byte} {s : State} {r : Fault} :
    exec (.append c) s = .fault r ↔
      ∃ cap, s.params.bufCap = some cap ∧ cap < s.buf.length + c.length ∧ r = .bufferOverflow s.buf.length c.length := by
  refine ⟨appendChunk_eq_fault, ?_⟩
  rintro ⟨cap, hcap, hover, rfl⟩
  exact exec_append_of_overflow hcap hover

theorem feed_eq_runOps (c : List Byte) (s : State) : feed c s = runOps [.append c, .drain] s := rfl

theorem feed_eq_next_iff {c : List Byte} {s t : State} :
    feed c s = .next t ↔ fits s c.length ∧ t = s.apply (drainEffect s.params (s.buf ++ c)) := by
  rw [feed, andThen_eq_next]
  constructor
  · rintro ⟨u, hu, hd⟩
    obtain ⟨hfits, rfl⟩ := exec_append_eq_next_iff.1 hu
    cases hd
    exact ⟨hfits, drainAll_setBuf s _⟩
  · rintro ⟨hfits, rfl⟩
    exact ⟨_, exec_append_of_fits hfits, by rw [drainAll_setBuf]⟩

theorem feed_eq_fault_iff {c : List Byte} {s : State} {r : Fault} :
    feed c s = .fault r ↔ exec (.append c) s = .fault r := by
  have happend : exec (.append c) s = appendChunk c s := rfl
  rw [feed, happend]
  cases appendChunk c s <;> simp [andThen]

theorem feed_ne_refused (c : List Byte) (s : State) (r : Refusal) : feed c s ≠ .refused r := by
  have hno := appendChunk_ne_refused c s r
  rw [feed]
  cases h : appendChunk c s with
  | next t => nofun
  | fault r => nofun
  | refused r' => rw [h] at hno; exact hno

/-- Only an appended chunk and a received frame arrive in the buffer. -/
theorem arrivingBytes_eq_nil {i : Instr} (happend : ∀ c, i ≠ .append c) (hrecv : encode i = none ∨ i.received ≠ i) :
    arrivingBytes i = [] := by
  unfold arrivingBytes
  split
  case h_1 c => exact absurd rfl (happend c)
  case h_2 =>
    rcases hrecv with hnone | hsent
    · rw [hnone]; exact ite_self _
    · exact if_neg hsent

namespace WireForm

variable {c : Byte} {mk : Link → List Byte → Instr}

theorem exec_recv_of_fits (h : WireForm c mk) (chk : Byte) {p : List Byte} (s : State) (hp : p.length ≤ 65535) :
    exec (mk (.recv chk) p) s = feed (frameBytes c p chk) s := by
  rw [h.exec_eq]
  exact if_neg (Nat.not_lt.2 hp)

theorem exec_of_oversize (h : WireForm c mk) (d : Link) {p : List Byte} (s : State) (hp : 65535 < p.length) :
    exec (mk d p) s = .refused (.encodeOversize p.length) := by
  rw [h.exec_eq]
  cases d with
  | send => exact sendCommand_of_oversize c s hp
  | recv chk => exact if_pos hp

theorem exec_send_of_fits (h : WireForm c mk) {p : List Byte} (s : State) (hp : p.length ≤ 65535) :
    exec (mk .send p) s = .next (s.pushWire (frameBytes c p (frameChecksum c p))) := by
  rw [h.exec_eq]
  exact sendCommand_of_fits c s hp

/-- A wire command that completes has a payload that fits. -/
theorem fits_of_exec_eq_next (h : WireForm c mk) {d : Link} {p : List Byte} {s t : State}
    (hexec : exec (mk d p) s = .next t) : p.length ≤ 65535 := by
  by_contra hp
  rw [h.exec_of_oversize d s (Nat.not_le.1 hp)] at hexec
  cases hexec

theorem exec_send_eq_next_iff (h : WireForm c mk) {p : List Byte} {s t : State} :
    exec (mk .send p) s = .next t ↔ p.length ≤ 65535 ∧ t = s.pushWire (frameBytes c p (frameChecksum c p)) := by
  constructor
  · intro hexec
    have hp := h.fits_of_exec_eq_next hexec
    rw [h.exec_send_of_fits s hp] at hexec
    cases hexec
    exact ⟨hp, rfl⟩
  · rintro ⟨hp, rfl⟩; exact h.exec_send_of_fits s hp

theorem exec_recv_eq_next_iff (h : WireForm c mk) {chk : Byte} {p : List Byte} {s t : State} :
    exec (mk (.recv chk) p) s = .next t ↔
      p.length ≤ 65535 ∧ fits s (p.length + 6) ∧ t = s.apply (drainEffect s.params (s.buf ++ frameBytes c p chk)) := by
  rw [← frameBytes_length c p chk, ← feed_eq_next_iff]
  constructor
  · intro hexec
    have hp := h.fits_of_exec_eq_next hexec
    exact ⟨hp, h.exec_recv_of_fits chk s hp ▸ hexec⟩
  · rintro ⟨hp, hfeed⟩
    rw [h.exec_recv_of_fits chk s hp, hfeed]

theorem encode_ne_none_iff (h : WireForm c mk) (d : Link) (p : List Byte) :
    encode (mk d p) ≠ none ↔ p.length ≤ 65535 := by
  rw [h.encode_eq, Ne, encodeCommand_eq_none_iff, not_lt]

theorem arrivingBytes_recv (h : WireForm c mk) (chk : Byte) {p : List Byte} (hp : p.length ≤ 65535) :
    arrivingBytes (mk (.recv chk) p) = frameBytes c p chk := by
  rw [h.arrivingBytes_eq, if_pos (h.received_recv chk p), h.encode_eq, encodeCommand_of_fits c _ hp]; rfl

end WireForm

/-- An instruction that has bytes is a wire command whose payload fits. -/
theorem wireForm_of_encode {i : Instr} {bytes : List Byte} (h : encode i = some bytes) :
    ∃ c mk d p, WireForm c mk ∧ i = mk d p ∧ bytes = frameBytes c p (d.checksum c p) := by
  cases i using Instr.form_cases with
  | wire c mk hform d p =>
    rw [hform.encode_eq] at h
    exact ⟨c, mk, d, p, hform, rfl, ((encodeCommand_eq_some_iff c d p bytes).1 h).2⟩
  | _ => cases h

/-! ### Every instruction -/

/-- An instruction that completes has an effect, which it has in every state with the same buffer and parameters
(10 R28, R29). -/
theorem exec_eq_next {i : Instr} {s t : State} (h : exec i s = .next t) :
    ∃ e : Effect, t = s.apply e ∧ ∀ u : State, u.buf = s.buf → u.params = s.params → exec i u = .next (u.apply e) := by
  cases i using Instr.form_cases with
  | wire c mk hform d p =>
    cases d with
    | send =>
      obtain ⟨hp, rfl⟩ := hform.exec_send_eq_next_iff.1 h
      refine ⟨_, pushWire_eq_apply s _, fun u hbuf _ => ?_⟩
      rw [hform.exec_send_of_fits u hp, pushWire_eq_apply, hbuf]
    | recv chk =>
      obtain ⟨hp, hfits, rfl⟩ := hform.exec_recv_eq_next_iff.1 h
      refine ⟨_, rfl, fun u hbuf hparams => hform.exec_recv_eq_next_iff.2 ⟨hp, ?_, ?_⟩⟩
      · exact (fits_congr hbuf hparams _).2 hfits
      · rw [hbuf, hparams]
  | checksum x =>
    cases h
    refine ⟨_, pushResult_eq_apply s _, fun u hbuf _ => ?_⟩
    rw [exec_checksum, pushResult_eq_apply, hbuf]
  | encode c p =>
    obtain ⟨hp, rfl⟩ := exec_encode_eq_next_iff.1 h
    refine ⟨_, pushResult_eq_apply s _, fun u hbuf _ => ?_⟩
    rw [exec_encode_of_fits c u hp, pushResult_eq_apply, hbuf]
  | decode x =>
    cases h
    refine ⟨_, pushResult_eq_apply s _, fun u hbuf _ => ?_⟩
    rw [exec_decode, pushResult_eq_apply, hbuf]
  | reset =>
    cases h
    refine ⟨_, setBuf_eq_apply s _, fun u _ _ => ?_⟩
    rw [exec_reset, setBuf_eq_apply]
  | append x =>
    obtain ⟨hfits, rfl⟩ := exec_append_eq_next_iff.1 h
    refine ⟨_, setBuf_eq_apply s _, fun u hbuf hparams => ?_⟩
    rw [exec_append_of_fits ((fits_congr hbuf hparams _).2 hfits), setBuf_eq_apply, hbuf]
  | parse =>
    cases h
    refine ⟨_, parseOnce_eq s, fun u hbuf hparams => ?_⟩
    rw [exec_parse, parseOnce_eq, hbuf, hparams]
  | drain =>
    cases h
    refine ⟨_, drainAll_eq s, fun u hbuf hparams => ?_⟩
    rw [exec_drain, drainAll_eq, hbuf, hparams]

theorem exec_params {i : Instr} {s t : State} (h : exec i s = .next t) : t.params = s.params := by
  obtain ⟨e, rfl, -⟩ := exec_eq_next h
  rfl

/-- Only what arrives in room for it makes an instruction fault (60 R180, R187). -/
theorem exec_eq_fault_iff {i : Instr} {s : State} {r : Fault} :
    exec i s = .fault r ↔
      ((∃ c, i = .append c) ∨ (encode i ≠ none ∧ i.received = i))
      ∧ ∃ cap, s.params.bufCap = some cap ∧ cap < s.buf.length + (arrivingBytes i).length
        ∧ r = .bufferOverflow s.buf.length (arrivingBytes i).length := by
  cases i using Instr.form_cases with
  | wire c mk hform d p =>
    have hno : ¬ ∃ x, mk d p = .append x := fun ⟨x, hx⟩ => hform.ne_append d p x hx
    rcases Nat.lt_or_ge 65535 p.length with hover | hp
    · have henc : ¬ encode (mk d p) ≠ none := by rw [hform.encode_ne_none_iff]; omega
      simp [hform.exec_of_oversize d s hover, hno, henc]
    · cases d with
      | send => simp [hform.exec_send_of_fits s hp, hno, hform.received_send_ne p]
      | recv chk =>
        rw [hform.exec_recv_of_fits chk s hp, feed_eq_fault_iff, exec_append_eq_fault_iff, hform.arrivingBytes_recv chk hp]
        exact (and_iff_right (.inr ⟨(hform.encode_ne_none_iff _ p).2 hp, hform.received_recv chk p⟩)).symm
  | append x => exact exec_append_eq_fault_iff.trans (and_iff_right (.inl ⟨x, rfl⟩)).symm
  | encode c p =>
    refine iff_of_false ?_ ?_
    · rcases Nat.lt_or_ge 65535 p.length with hover | hp
      · rw [exec_encode_of_oversize c s hover]; nofun
      · rw [exec_encode_of_fits c s hp]; nofun
    · rintro ⟨⟨_, ⟨⟩⟩ | ⟨henc, -⟩, -⟩
      exact henc rfl
  | _ =>
    refine iff_of_false nofun ?_
    rintro ⟨⟨_, ⟨⟩⟩ | ⟨henc, -⟩, -⟩
    exact henc rfl

/-- Only a payload that no frame can hold makes an instruction refused (60 R180, R185). -/
theorem exec_eq_refused_iff {i : Instr} {s : State} {r : Refusal} :
    exec i s = .refused r ↔ 65535 < i.payload.length ∧ r = .encodeOversize i.payload.length := by
  cases i using Instr.form_cases with
  | wire c mk hform d p =>
    rw [hform.payload_eq]
    rcases Nat.lt_or_ge 65535 p.length with hover | hp
    · simp [hform.exec_of_oversize d s hover, hover, eq_comm]
    · refine iff_of_false ?_ fun h => absurd h.1 (Nat.not_lt.2 hp)
      cases d with
      | send => rw [hform.exec_send_of_fits s hp]; nofun
      | recv chk => rw [hform.exec_recv_of_fits chk s hp]; exact feed_ne_refused _ s r
  | encode c p =>
    rw [show (Instr.encode c p).payload = p from rfl]
    rcases Nat.lt_or_ge 65535 p.length with hover | hp
    · simp [exec_encode_of_oversize c s hover, hover, eq_comm]
    · refine iff_of_false ?_ fun h => absurd h.1 (Nat.not_lt.2 hp)
      rw [exec_encode_of_fits c s hp]; nofun
  | append x => exact iff_of_false (appendChunk_ne_refused x s r) fun h => absurd h.1 (Nat.not_lt_zero _)
  | _ => exact iff_of_false nofun fun h => absurd h.1 (Nat.not_lt_zero _)

/-! ### The buffer -/

/-- The instructions that do not reach the buffer: the codec's, and every sent command (10 R20). -/
def LeavesBuf (i : Instr) : Prop :=
  (∃ x, i = .checksum x) ∨ (∃ c x, i = .encode c x) ∨ (∃ x, i = .decode x) ∨ (encode i ≠ none ∧ i.received ≠ i)

theorem WireForm.leavesBuf_send {c : Byte} {mk : Link → List Byte → Instr} (h : WireForm c mk) {p : List Byte}
    (hp : p.length ≤ 65535) : LeavesBuf (mk .send p) :=
  .inr (.inr (.inr ⟨(h.encode_ne_none_iff .send p).2 hp, h.received_send_ne p⟩))

theorem arrivingBytes_of_leavesBuf {i : Instr} (h : LeavesBuf i) : arrivingBytes i = [] := by
  rcases h with ⟨x, rfl⟩ | ⟨c, p, rfl⟩ | ⟨x, rfl⟩ | ⟨hbytes, hsent⟩
  · exact arrivingBytes_eq_nil nofun (.inl rfl)
  · exact arrivingBytes_eq_nil nofun (.inl rfl)
  · exact arrivingBytes_eq_nil nofun (.inl rfl)
  · refine arrivingBytes_eq_nil ?_ (.inr hsent)
    rintro c rfl
    exact hbytes rfl

theorem exec_leaves_buf {i : Instr} {s t : State} (h : exec i s = .next t) (hi : LeavesBuf i) : t.buf = s.buf := by
  rcases hi with ⟨x, rfl⟩ | ⟨c, p, rfl⟩ | ⟨x, rfl⟩ | ⟨hbytes, hsent⟩
  · cases h; rfl
  · obtain ⟨-, rfl⟩ := exec_encode_eq_next_iff.1 h
    rfl
  · cases h; rfl
  · obtain ⟨bytes, henc⟩ := Option.ne_none_iff_exists'.1 hbytes
    obtain ⟨c, mk, d, p, hform, rfl, -⟩ := wireForm_of_encode henc
    cases d with
    | send =>
      obtain ⟨-, rfl⟩ := hform.exec_send_eq_next_iff.1 h
      rfl
    | recv chk => exact absurd (hform.received_recv chk p) hsent

theorem exec_recv_buf_suffix {i : Instr} {bytes : List Byte} {s t : State} (h : exec i s = .next t)
    (hbytes : encode i = some bytes) (hrecv : i.received = i) : t.buf <:+ s.buf ++ bytes := by
  obtain ⟨c, mk, d, p, hform, rfl, rfl⟩ := wireForm_of_encode hbytes
  cases d with
  | send => exact absurd hrecv (hform.received_send_ne p)
  | recv chk =>
    obtain ⟨-, -, rfl⟩ := hform.exec_recv_eq_next_iff.1 h
    exact drainBuf_suffix _ _

theorem exec_parse_or_drain_buf_suffix {i : Instr} {s t : State} (h : exec i s = .next t) (hi : i = .parse ∨ i = .drain) :
    t.buf <:+ s.buf := by
  rcases hi with rfl | rfl <;> cases h
  · rw [parseOnce_buf]; exact parseBuf_suffix rfl
  · rw [drainAll_buf]; exact drainBuf_suffix _ _

/-- Bytes arrive at the tail and go from the head, but for RESET (20 R49 (a)). -/
theorem exec_buf_suffix {i : Instr} {s t : State} (h : exec i s = .next t) (hi : i ≠ .reset) :
    t.buf <:+ s.buf ++ arrivingBytes i := by
  have hleaves : LeavesBuf i → t.buf <:+ s.buf ++ arrivingBytes i := fun hi => by
    rw [arrivingBytes_of_leavesBuf hi, List.append_nil, exec_leaves_buf h hi]
  cases i using Instr.form_cases with
  | wire c mk hform d p =>
    cases d with
    | send => exact hleaves (hform.leavesBuf_send (hform.fits_of_exec_eq_next h))
    | recv chk =>
      have hp := hform.fits_of_exec_eq_next h
      rw [hform.arrivingBytes_recv chk hp]
      exact exec_recv_buf_suffix h (by rw [hform.encode_eq, encodeCommand_of_fits c _ hp]; rfl) (hform.received_recv chk p)
  | append x =>
    obtain ⟨-, rfl⟩ := exec_append_eq_next_iff.1 h
    exact List.suffix_rfl
  | reset => exact absurd rfl hi
  | checksum x => exact hleaves (.inl ⟨x, rfl⟩)
  | encode c p => exact hleaves (.inr (.inl ⟨c, p, rfl⟩))
  | decode x => exact hleaves (.inr (.inr (.inl ⟨x, rfl⟩)))
  | parse =>
    rw [show arrivingBytes .parse = [] from rfl, List.append_nil]
    exact exec_parse_or_drain_buf_suffix h (.inl rfl)
  | drain =>
    rw [show arrivingBytes .drain = [] from rfl, List.append_nil]
    exact exec_parse_or_drain_buf_suffix h (.inr rfl)

/-- An instruction that completes found room for what it brings. -/
theorem exec_fits_arrivingBytes {i : Instr} {s t : State} (h : exec i s = .next t) (hs : withinCap s) :
    fits s (arrivingBytes i).length := by
  rcases fits_or_overflow s (arrivingBytes i).length with hfits | ⟨cap, hcap, hover⟩
  · exact hfits
  · exfalso
    by_cases hbrings : (∃ c, i = .append c) ∨ (encode i ≠ none ∧ i.received = i)
    · rw [exec_eq_fault_iff.2 ⟨hbrings, cap, hcap, hover, rfl⟩] at h
      cases h
    · rw [not_or, not_exists, not_and_or, not_not] at hbrings
      rw [arrivingBytes_eq_nil hbrings.1 hbrings.2] at hover
      exact absurd (hs cap hcap) (Nat.not_le.2 hover)

/-- No instruction takes the buffer over its capacity (41 R111). -/
theorem exec_withinCap {i : Instr} {s t : State} (h : exec i s = .next t) (hs : withinCap s) : withinCap t := by
  intro cap hcap
  by_cases hi : i = .reset
  · subst hi
    cases h
    exact Nat.zero_le cap
  · rw [exec_params h] at hcap
    have hroom := exec_fits_arrivingBytes h hs cap hcap
    have hlen := (exec_buf_suffix h hi).length_le
    rw [List.length_append] at hlen
    omega

/-! ### Bytes by offset (10 R27) -/

/-- Every byte that is kept has moved down by the number of bytes dropped. -/
theorem readByte_of_suffix {b b' : List Byte} (h : b' <:+ b) (off : Nat) :
    readByte b' off = readByte b (b.length - b'.length + off) := by
  obtain ⟨gone, rfl⟩ := h
  rw [List.length_append, Nat.add_sub_cancel, ← readByte_drop, bufDrop, List.drop_left]

/-! ### Runs of instructions -/

theorem runOps_cons_eq_next_iff {i : Instr} {is : List Instr} {s t : State} :
    runOps (i :: is) s = .next t ↔ ∃ u, exec i s = .next u ∧ runOps is u = .next t :=
  andThen_eq_next

theorem runOps_params {is : List Instr} {s t : State} (h : runOps is s = .next t) : t.params = s.params := by
  induction is generalizing s with
  | nil => cases h; rfl
  | cons i is ih =>
    obtain ⟨u, hi, hrest⟩ := runOps_cons_eq_next_iff.1 h
    exact (ih hrest).trans (exec_params hi)

/-! ### The statements -/

/-- Settles O36. -/
theorem dispatcherArms : Obligations.DispatcherArms := by
  intro s f
  refine ⟨fun h3 => ?_, fun h7 => ?_, fun h3 h7 => ?_⟩
  · rw [dispatch, if_pos h3, List.length_append]; rfl
  · rw [dispatch, if_neg (by rw [h7]; decide), if_pos h7]; rfl
  · rw [dispatch, if_neg h3, if_neg h7]; rfl

/-- Settles O17: the effects of PARSE and DRAIN name the yielded frames, and so does the dispatcher in closed form. -/
theorem yieldedFramesReachDispatcher : Obligations.YieldedFramesReachDispatcher := by
  intro s
  constructor
  · intro f hf
    refine ⟨_, exec_parse s, ?_, ?_⟩ <;>
      simp [parseOnce_eq, State.apply, parseEffect, hf, ParseOutcome.yielded, dispatch_eq, reports]
  · refine ⟨_, exec_drain s, ?_, ?_⟩ <;> rw [drainAll_eq, ← dispatchAll, dispatchAll_eq] <;> rfl

/-- Settles O13. -/
theorem runsKeepHardwareParameters : Obligations.RunsKeepHardwareParameters := by
  intro is t h
  rw [runOps_params h]
  exact ⟨rfl, rfl, rfl⟩

/-- Settles O29: instruction by instruction, what is left is a tail of what was there and what arrived. -/
theorem streamIsConserved : Obligations.StreamIsConserved := by
  intro is s t hreset h
  suffices hsuffix : t.buf <:+ s.buf ++ is.flatMap arrivingBytes from
    hsuffix.imp fun _ => Eq.symm
  induction is generalizing s with
  | nil => cases h; simp
  | cons i is ih =>
    obtain ⟨u, hi, hrest⟩ := runOps_cons_eq_next_iff.1 h
    obtain ⟨hne, hnotin⟩ := List.ne_and_not_mem_of_not_mem_cons hreset
    have hstep : u.buf ++ is.flatMap arrivingBytes <:+ s.buf ++ arrivingBytes i ++ is.flatMap arrivingBytes := by
      obtain ⟨gone, hgone⟩ := exec_buf_suffix hi (Ne.symm hne)
      exact ⟨gone, by rw [← List.append_assoc, hgone]⟩
    rw [List.flatMap_cons, ← List.append_assoc]
    exact (ih u hnotin hrest).trans hstep

/-- Settles O39. -/
theorem bufferChangesOnlyAtItsEnds : Obligations.BufferChangesOnlyAtItsEnds := by
  intro i s t h
  refine ⟨fun x hi => exec_leaves_buf h (.inl ⟨x, hi⟩), fun c x hi => exec_leaves_buf h (.inr (.inl ⟨c, x, hi⟩)),
    fun x hi => exec_leaves_buf h (.inr (.inr (.inl ⟨x, hi⟩))), ?_, ?_,
    fun hi => exec_parse_or_drain_buf_suffix h (.inl hi), fun hi => exec_parse_or_drain_buf_suffix h (.inr hi),
    fun bytes hbytes hsent => exec_leaves_buf h (.inr (.inr (.inr ⟨by simp [hbytes], hsent⟩))),
    fun bytes => exec_recv_buf_suffix h⟩
  · rintro rfl
    cases h; rfl
  · rintro x rfl
    obtain ⟨-, rfl⟩ := exec_append_eq_next_iff.1 h
    rfl

/-- Settles O40: a buffer left alone, grown at the tail, or cut at the head, read by offset. -/
theorem everyByteReadsAsStated : Obligations.EveryByteReadsAsStated := by
  intro i s t h
  refine ⟨fun off hi => by rw [exec_leaves_buf h hi], ?_,
    fun off hi => readByte_of_suffix (exec_parse_or_drain_buf_suffix h hi) off,
    fun bytes off hbytes hrecv => readByte_of_suffix (exec_recv_buf_suffix h hbytes hrecv) off, ?_⟩
  · rintro c off rfl
    obtain ⟨-, rfl⟩ := exec_append_eq_next_iff.1 h
    exact ⟨readByte_append_old s.buf c off, readByte_append_new s.buf c off⟩
  · rintro off rfl
    cases h; rfl

/-- Settles O41: an effect names all it writes, and each form's says which of these are empty. -/
theorem instructionFrames : Obligations.InstructionFrames := by
  intro i s t h
  obtain ⟨e, ht, -⟩ := exec_eq_next h
  refine ⟨by rw [ht]; rfl, by rw [ht]; rfl, by rw [ht]; rfl, by rw [ht]; rfl, by rw [ht]; rfl, by rw [ht]; rfl,
    by rw [ht]; rfl, ht ▸ List.prefix_append _ _, ht ▸ List.prefix_append _ _, ht ▸ List.prefix_append _ _,
    ht ▸ List.prefix_append _ _, ?_⟩
  clear ht
  cases i using Instr.form_cases with
  | wire c mk hform d p =>
    have henc := (hform.encode_ne_none_iff d p).2 (hform.fits_of_exec_eq_next h)
    cases d with
    | send =>
      obtain ⟨-, rfl⟩ := hform.exec_send_eq_next_iff.1 h
      have hsent := hform.received_send_ne p
      exact ⟨fun hno => absurd hno (not_or.2 ⟨henc, hsent⟩), fun hnone => absurd hnone henc, fun _ _ => ⟨rfl, rfl, rfl⟩⟩
    | recv chk =>
      obtain ⟨-, -, rfl⟩ := hform.exec_recv_eq_next_iff.1 h
      exact ⟨fun _ => List.append_nil _, fun hnone => absurd hnone henc,
        fun _ hsent => absurd (hform.received_recv chk p) hsent⟩
  | append x =>
    obtain ⟨-, rfl⟩ := exec_append_eq_next_iff.1 h
    exact ⟨fun _ => rfl, fun _ _ _ => ⟨rfl, rfl⟩, fun hbytes => absurd rfl hbytes⟩
  | encode c p =>
    obtain ⟨-, rfl⟩ := exec_encode_eq_next_iff.1 h
    exact ⟨fun _ => rfl, fun _ _ _ => ⟨rfl, rfl⟩, fun hbytes => absurd rfl hbytes⟩
  | parse =>
    cases h
    exact ⟨fun _ => by simp [parseOnce], fun _ hparse => absurd rfl hparse, fun hbytes => absurd rfl hbytes⟩
  | drain =>
    cases h
    exact ⟨fun _ => by simp [drainAll], fun _ _ hdrain => absurd rfl hdrain, fun hbytes => absurd rfl hbytes⟩
  | _ =>
    cases h
    exact ⟨fun _ => rfl, fun _ _ _ => ⟨rfl, rfl⟩, fun hbytes => absurd rfl hbytes⟩

/-- Settles O42. -/
theorem onlyOverflowAndOversizeStop : Obligations.OnlyOverflowAndOversizeStop :=
  fun _ _ => ⟨fun _ => exec_eq_fault_iff.1, fun _ => exec_eq_refused_iff.1⟩

/-- Settles O43: when an instruction stops, and the effect it has, are said of the buffer and the parameters alone. -/
theorem blockIgnoresHostState : Obligations.BlockIgnoresHostState := by
  intro i s t hbuf hparams
  refine ⟨fun r => ?_, fun r => ?_, fun s' h => ?_⟩
  · rw [exec_eq_fault_iff, exec_eq_fault_iff, hbuf, hparams]
  · rw [exec_eq_refused_iff, exec_eq_refused_iff]
  · obtain ⟨e, rfl, hall⟩ := exec_eq_next h
    exact ⟨_, e.results, hall t hbuf.symm hparams.symm, rfl, rfl, rfl⟩

/-- Every received command is APPEND of its frame and DRAIN. -/
theorem WireForm.feedsFrame {c : Byte} {mk : Link → List Byte → Instr} (h : WireForm c mk) :
    Statements.FeedsFrame c mk := by
  intro chk p s
  have hframe : [0xAA, 0x55, c, lo8 p.length, hi8 p.length] ++ p ++ [chk] = frameBytes c p chk := rfl
  rw [hframe, ← frameBytes_length c p chk]
  refine ⟨fun hp hfits => ?_, fun hp cap hcap hover => ?_, h.exec_of_oversize _ s⟩
  · refine ⟨_, _, exec_append_of_fits hfits, exec_drain _, ?_⟩
    rw [h.exec_recv_of_fits chk s hp, feed_eq_next_iff]
    exact ⟨hfits, drainAll_setBuf s _⟩
  · rw [h.exec_recv_of_fits chk s hp, feed_eq_fault_iff]
    exact exec_append_of_overflow hcap hover

/-- Settles O34. -/
theorem receiveFeedsTheFrame : Obligations.ReceiveFeedsTheFrame :=
  ⟨WireForm.startRecord.feedsFrame, WireForm.stopRecord.feedsFrame, WireForm.audioData.feedsFrame,
    WireForm.startPlay.feedsFrame, WireForm.stopPlay.feedsFrame, WireForm.handshake.feedsFrame,
    WireForm.ack.feedsFrame, WireForm.setFormat.feedsFrame, fun c => (WireForm.unnamed c).feedsFrame⟩

/-- A drain of one valid frame yields it and leaves nothing. -/
theorem drainBuf_frame (p : Params) {x : List Byte} (h : isValidFrame x = true) : drainBuf p x = ([frameOf x], []) := by
  have hturn := parseBuf_frame_append p.resyncSkip [] h
  rw [List.append_nil] at hturn
  have hempty : drainBuf p [] = ([], []) := drainBuf_of_isQuiescent p ((isQuiescent_iff_phase _ _).2 (.inl rfl))
  rw [drainBuf_of_frame p hturn, hempty]

/-- An intact frame that comes to an empty buffer is dispatched. -/
theorem WireForm.deliversFrame {c : Byte} {mk : Link → List Byte → Instr} (h : WireForm c mk)
    {eff : List Byte → State → State} (heff : ∀ p s, dispatch s { command := c, payload := p } = eff p s) :
    Statements.DeliversFrame c mk eff := by
  intro p s hp hbuf hfits
  rw [← heff]
  refine (h.exec_recv_eq_next_iff (chk := frameChecksum c p)).2 ⟨hp, hfits, ?_⟩
  rw [hbuf, List.nil_append, drainEffect, drainBuf_frame s.params (isValidFrame_frameBytes c hp), frameOf_frameBytes,
    dispatch_eq]
  simp [State.apply, reports]

/-- Settles O35: every form is delivered, and the dispatcher's arm is read off its code. -/
theorem intactCommandIsDispatched : Obligations.IntactCommandIsDispatched := by
  have hother : ∀ {c mk}, WireForm c mk → c ≠ 0x03 → c ≠ 0x07 →
      Statements.DeliversFrame c mk (Statements.notRecognizedEffect c) :=
    fun hform h3 h7 => hform.deliversFrame fun p s => (dispatcherArms s _).2.2 h3 h7
  refine ⟨hother .startRecord (by decide) (by decide), hother .stopRecord (by decide) (by decide),
    WireForm.audioData.deliversFrame fun p s => (dispatcherArms s _).1 rfl,
    hother .startPlay (by decide) (by decide), hother .stopPlay (by decide) (by decide),
    hother .handshake (by decide) (by decide),
    WireForm.ack.deliversFrame fun p s => (dispatcherArms s _).2.1 rfl,
    hother .setFormat (by decide) (by decide), fun c hc => hother (.unnamed c) ?_ ?_⟩
  · rintro rfl; exact absurd hc (by decide)
  · rintro rfl; exact absurd hc (by decide)

/-- A chunk is fed whether or not it is one whole frame (43 R162). -/
theorem takeChunk_eq_feed (x : List Byte) (s : State) : takeChunk x s = feed x s := by
  unfold takeChunk
  cases h : decodeWire x with
  | error e => rfl
  | ok i =>
    obtain ⟨c, mk, p, chk, hform, -, hp, rfl, rfl⟩ := decodeWire_eq_ok h
    exact hform.exec_recv_of_fits chk s hp

theorem readerTurn_data {s : State} (halive : s.taskAlive = true) (hrunning : s.running = true) (x : List Byte) :
    readerTurn (.data x) s = feed x s := by
  rw [readerTurn, if_neg (by simp [halive]), if_neg (by simp [hrunning])]
  exact takeChunk_eq_feed x s

/-- Settles O38. -/
theorem readerTurnFeedsEveryChunk : Obligations.ReaderTurnFeedsEveryChunk :=
  fun s x halive hrunning => (readerTurn_data halive hrunning x).trans (feed_eq_runOps x s)

end Sys2Proof.Machine
end

section
/-! PROOFS. Runs of APPEND and DRAIN, 41_stream_parser R130 and 20_memory R55: they never overflow a large enough buffer, and
what they yield does not depend on how the stream was cut. -/
namespace Sys2Proof.Machine

/-! ### What a run of drains has yielded -/

/-- From `s` to `t` the frames `fs` were yielded and dispatched, and `b` is left in the buffer. -/
structure Yields (s t : State) (fs : List Frame) (b : List Byte) : Prop where
  yielded : t.yielded = s.yielded ++ fs
  buf : t.buf = b
  accum : t.accum = s.accum ++ fs.flatMap Frame.audio
  observations : t.observations = s.observations ++ reports s.accum fs
  params : t.params = s.params

namespace Yields

variable {s t u : State} {fs gs : List Frame} {b c : List Byte}

theorem refl (s : State) : Yields s s [] s.buf where
  yielded := (List.append_nil _).symm
  buf := rfl
  accum := (List.append_nil _).symm
  observations := (List.append_nil _).symm
  params := rfl

theorem trans (h : Yields s t fs b) (h' : Yields t u gs c) : Yields s u (fs ++ gs) c where
  yielded := by rw [h'.yielded, h.yielded, List.append_assoc]
  buf := h'.buf
  accum := by rw [h'.accum, h.accum, List.flatMap_append, List.append_assoc]
  observations := by rw [h'.observations, h.observations, h.accum, reports_append, List.append_assoc]
  params := h'.params.trans h.params

/-- A drain's effect, on whatever buffer. -/
theorem of_drain (s : State) (b : List Byte) :
    Yields s (s.apply (drainEffect s.params b)) (drainBuf s.params b).1 (drainBuf s.params b).2 where
  yielded := by simp [State.yielded, State.apply, drainEffect, Result.frames]
  buf := rfl
  accum := rfl
  observations := rfl
  params := rfl

end Yields

theorem exec_drain_yields (s : State) :
    ∃ t, exec .drain s = .next t ∧ Yields s t (drainBuf s.params s.buf).1 (drainBuf s.params s.buf).2 :=
  ⟨_, exec_drain s, drainAll_eq s ▸ Yields.of_drain s s.buf⟩

theorem feed_yields {s : State} {c : List Byte} (h : fits s c.length) :
    ∃ t, feed c s = .next t ∧ Yields s t (drainBuf s.params (s.buf ++ c)).1 (drainBuf s.params (s.buf ++ c)).2 :=
  ⟨_, feed_eq_next_iff.2 ⟨h, rfl⟩, Yields.of_drain s _⟩

/-! ### Chunks appended and drained one after the other -/

theorem andThen_assoc (o : Host.Outcome State Fault Refusal) (f g : State → Host.Outcome State Fault Refusal) :
    andThen (andThen o f) g = andThen o fun s => andThen (f s) g := by
  cases o <;> rfl

theorem runOps_feed_cons (c : List Byte) (is : List Instr) (s : State) :
    runOps (.append c :: .drain :: is) s = andThen (feed c s) (runOps is) := by
  rw [feed, andThen_assoc]; rfl

theorem runOps_feeds_cons (c : List Byte) (cs : List (List Byte)) (s : State) :
    runOps ((c :: cs).flatMap fun c => [.append c, .drain]) s =
      andThen (feed c s) (runOps (cs.flatMap fun c => [.append c, .drain])) :=
  runOps_feed_cons c _ s

theorem fits_of_unbounded {s : State} (h : s.params.bufCap = none) (n : Nat) : fits s n := by
  intro cap hcap
  rw [h] at hcap; cases hcap

/-- Over an unbounded buffer the run completes, and yields what `feedChunks` says. -/
theorem runOps_feeds {s : State} (h : s.params.bufCap = none) (cs : List (List Byte)) :
    ∃ t, runOps (cs.flatMap fun c => [.append c, .drain]) s = .next t
      ∧ Yields s t (feedChunks s.params s.buf cs).1 (feedChunks s.params s.buf cs).2 := by
  induction cs generalizing s with
  | nil => exact ⟨s, rfl, .refl s⟩
  | cons c cs ih =>
    obtain ⟨u, hu, hyields⟩ := feed_yields (fits_of_unbounded h c.length)
    obtain ⟨t, ht, hrest⟩ := ih (s := u) (by rw [hyields.params, h])
    rw [hyields.params, hyields.buf] at hrest
    exact ⟨t, by rw [runOps_feeds_cons, hu, andThen_next, ht], hyields.trans hrest⟩

theorem isQuiescent_nil (skip : ResyncSkip) : isQuiescent skip [] = true :=
  (isQuiescent_iff_phase skip []).2 (.inl rfl)

/-! ### Catching up (20 R55) -/

/-- A drain that does not wait at once leaves fewer bytes. -/
theorem drainBuf_shorter (p : Params) {b b' : List Byte} {o : ParseOutcome} (h : parseBuf p.resyncSkip b = (o, b'))
    (ho : o.isWait = false) : (drainBuf p b).2.length < b.length := by
  have hless := parseBuf_shorter h ho
  have hskip := skip_bytes_pos p.resyncSkip
  have hb' := (drainBuf_suffix p b').length_le
  cases o with
  | frame f => rw [drainBuf_of_frame p h]; simp only; omega
  | corrupt =>
    rcases drainBuf_of_corrupt_cases p h with hd | hd <;> rw [hd]
    · omega
    · simp only; omega
  | noHeader => cases ho
  | needMin => cases ho
  | needBody => cases ho

/-- Enough drains under either policy yield what one drain to quiescence does. -/
theorem runOps_drains {p : Params} (hp : p.drainPolicy = .quiescent) (s : State)
    (hskip : s.params.resyncSkip = p.resyncSkip) :
    ∃ n t, runOps (List.replicate n .drain) s = .next t ∧ Yields s t (drainBuf p s.buf).1 (drainBuf p s.buf).2 := by
  induction hn : s.buf.length using Nat.strong_induction_on generalizing s with
  | _ n ih =>
    obtain ⟨u, hu, hyields⟩ := exec_drain_yields s
    obtain ⟨o, b', h⟩ : ∃ o b', parseBuf s.params.resyncSkip s.buf = (o, b') := ⟨_, _, rfl⟩
    cases ho : o.isWait with
    | true =>
      rw [drainBuf_of_wait _ h ho, ← drainBuf_of_wait p (hskip ▸ h) ho] at hyields
      exact ⟨1, u, by rw [List.replicate_one, runOps, hu]; rfl, hyields⟩
    | false =>
      have hshort := drainBuf_shorter s.params h ho
      rw [← hyields.buf] at hshort
      obtain ⟨k, t, ht, hrest⟩ := ih u.buf.length (by omega) u (by rw [hyields.params, hskip]) rfl
      have hall := drainBuf_append hp hskip s.buf []
      rw [List.append_nil, List.append_nil, ← hyields.buf] at hall
      refine ⟨k + 1, t, ?_, ?_⟩
      · rw [List.replicate_succ, runOps, hu, andThen_next, ht]
      · rw [hall]; exact hyields.trans hrest

/-! ### The statements -/

/-- Settles O27: what a drain to quiescence leaves has room for one more chunk. -/
theorem boundedChunksNeverOverflow : Obligations.BoundedChunksNeverOverflow := by
  intro s k cap cs hp hcap hroom hbuf hcs
  induction cs generalizing s with
  | nil => exact ⟨s, rfl, hbuf⟩
  | cons c cs ih =>
    obtain ⟨hc, hcs⟩ := List.forall_mem_cons.1 hcs
    have hfits : fits s c.length := by
      intro cap' hcap'
      obtain rfl : cap' = cap := Option.some.inj (hcap'.symm.trans hcap)
      omega
    obtain ⟨u, hu, hyields⟩ := feed_yields hfits
    have hquiet := length_le_of_isQuiescent (drainBuf_quiescent hp (s.buf ++ c))
    rw [runOps_feeds_cons, hu]
    exact ih u (by rw [hyields.params, hp]) (by rw [hyields.params, hcap]) (by rw [hyields.buf]; exact hquiet) hcs

/-- Settles O30: RESET leaves a quiescent buffer, and from one both runs yield one drain of the whole stream. -/
theorem chunkingDoesNotMatter : Obligations.ChunkingDoesNotMatter := by
  intro s cs hp hcap
  obtain ⟨t, ht, htyields⟩ := runOps_feeds (s := s.setBuf []) hcap cs
  obtain ⟨u, hu, huyields⟩ := feed_yields (s := s.setBuf []) (c := cs.flatten) (fits_of_unbounded (s := s.setBuf []) hcap _)
  rw [State.setBuf_params, State.setBuf_buf, feedChunks_eq_drainBuf hp (isQuiescent_nil _)] at htyields
  refine ⟨t, u, ht, hu, ?_, ?_, ?_, ?_⟩
  · rw [htyields.yielded, huyields.yielded]; rfl
  · rw [htyields.buf, huyields.buf]; rfl
  · rw [htyields.accum, huyields.accum]; rfl
  · rw [htyields.observations, huyields.observations]; rfl

/-- Settles O31: what the later policy has yielded so far, with one drain to quiescence of what it has left, is one drain
of the whole stream. -/
theorem firstNoFrameOnlyDelays : Obligations.FirstNoFrameOnlyDelays := by
  rintro s l cs hp hcap rfl
  obtain ⟨t, ht, htyields⟩ := runOps_feeds (s := s.setBuf []) hcap cs
  obtain ⟨u, hu, huyields⟩ :=
    runOps_feeds (s := ({ s with params := { s.params with drainPolicy := .firstNoFrame } } : State).setBuf []) hcap cs
  obtain ⟨n, v, hv, hvyields⟩ := runOps_drains hp u (by rw [huyields.params]; rfl)
  have hwhole := feedChunks_eq_drainBuf hp (isQuiescent_nil _) cs
  rw [feedChunks_drain (l := { s.params with drainPolicy := .firstNoFrame }) hp rfl] at hwhole
  rw [State.setBuf_params, State.setBuf_buf, hwhole] at htyields
  rw [huyields.buf] at hvyields
  have hcaught := huyields.trans hvyields
  refine ⟨t, u, ht, hu, ?_, n, v, hv, ?_, ?_, ?_, ?_⟩
  · rw [htyields.yielded, huyields.yielded, ← List.append_assoc]
    exact List.prefix_append _ _
  · rw [hcaught.yielded, htyields.yielded]; rfl
  · rw [hcaught.buf, htyields.buf]; rfl
  · rw [hcaught.accum, htyields.accum]; rfl
  · rw [hcaught.observations, htyields.observations]; rfl

end Sys2Proof.Machine
end

section
/-! PROOFS. The moves of the host one by one, 43_host_environment R162 to R168: what each can do, the machine's invariant, and
what the Session Controller and the Reader Task share. -/
namespace Sys2Proof.Machine

/-! ### The Reader Task's turn (43 R162, R166) -/

theorem readerTurn_of_dead {s : State} (r : ReadResult) (halive : s.taskAlive = false) : readerTurn r s = .next s :=
  if_pos halive

theorem readerTurn_of_stopped {s : State} (r : ReadResult) (halive : s.taskAlive = true) (hrunning : s.running = false) :
    readerTurn r s = .next (s.setTask false) := by
  unfold readerTurn
  rw [if_neg (by simp [halive]), if_pos hrunning]

theorem readerTurn_error {s : State} (halive : s.taskAlive = true) (hrunning : s.running = true) :
    readerTurn .error s = .next (readFault s) := by
  rw [readerTurn, if_neg (by simp [halive]), if_neg (by simp [hrunning])]

theorem readerTurn_timeout {s : State} (halive : s.taskAlive = true) (hrunning : s.running = true) :
    readerTurn .timeout s = .next s := by
  rw [readerTurn, if_neg (by simp [halive]), if_neg (by simp [hrunning])]

/-- Everything a turn can do. -/
theorem readerTurn_eq_next {r : ReadResult} {s t : State} (h : readerTurn r s = .next t) :
    (s.taskAlive = false ∧ t = s)
    ∨ (s.taskAlive = true ∧ s.running = false ∧ t = s.setTask false)
    ∨ (s.taskAlive = true ∧ s.running = true
      ∧ (r = .error ∧ t = readFault s ∨ r = .timeout ∧ t = s
        ∨ ∃ x, r = .data x ∧ fits s x.length ∧ t = s.apply (drainEffect s.params (s.buf ++ x)))) := by
  cases halive : s.taskAlive with
  | false =>
    rw [readerTurn_of_dead r halive] at h
    cases h; exact .inl ⟨rfl, rfl⟩
  | true =>
    cases hrunning : s.running with
    | false =>
      rw [readerTurn_of_stopped r halive hrunning] at h
      cases h; exact .inr (.inl ⟨rfl, rfl, rfl⟩)
    | true =>
      refine .inr (.inr ⟨rfl, rfl, ?_⟩)
      cases r with
      | error =>
        rw [readerTurn_error halive hrunning] at h
        cases h; exact .inl ⟨rfl, rfl⟩
      | timeout =>
        rw [readerTurn_timeout halive hrunning] at h
        cases h; exact .inr (.inl ⟨rfl, rfl⟩)
      | data x =>
        rw [readerTurn_data halive hrunning] at h
        exact .inr (.inr ⟨x, rfl, feed_eq_next_iff.1 h⟩)

/-! ### The Session Controller's sends and reports (43 R163, R166) -/

theorem exec_instrOfCommand_send (c : Byte) {p : List Byte} (s : State) (h : p.length ≤ 65535) :
    exec (instrOfCommand c .send p) s = .next (s.pushWire (frameBytes c p (frameChecksum c p))) := by
  obtain ⟨mk, hform, hmk⟩ := instrOfCommand_form c
  rw [hmk, hform.exec_send_of_fits s h]

/-- A send goes out while the operation has not failed, and the stop command even then. -/
def sendsOut (s : State) (c : Byte) : Prop := s.failed = false ∨ stopCommand s.session = some c

theorem sendsOut_iff (s : State) (c : Byte) : sendsOut s c ↔ ¬ (s.failed = true ∧ stopCommand s.session ≠ some c) := by
  rw [sendsOut, not_and_or, Bool.not_eq_true, not_not]

theorem sessionSend_of_failed {s : State} {c : Byte} (p : List Byte) (w : WriteResult) (hfailed : s.failed = true)
    (hstop : stopCommand s.session ≠ some c) : sessionSend c p w s = .next s :=
  if_pos ⟨hfailed, hstop⟩

theorem sessionSend_written {s : State} {c : Byte} {p : List Byte} (h : sendsOut s c) (hp : p.length ≤ 65535) :
    sessionSend c p .written s = .next (s.pushWire (frameBytes c p (frameChecksum c p))) := by
  rw [sessionSend, if_neg ((sendsOut_iff s c).1 h)]
  exact exec_instrOfCommand_send c s hp

theorem sessionSend_failing {s : State} {c : Byte} {p : List Byte} (n : Nat) (h : sendsOut s c) (hp : p.length ≤ 65535) :
    sessionSend c p (.failed n) s =
      .next (transportFault .writeFailed (s.pushWire ((frameBytes c p (frameChecksum c p)).take n))) := by
  rw [sessionSend, if_neg ((sendsOut_iff s c).1 h)]
  simp only [encodeFrame_of_fits c hp]

theorem sessionSend_of_oversize {s : State} {c : Byte} {p : List Byte} (w : WriteResult) (h : sendsOut s c)
    (hp : 65535 < p.length) : sessionSend c p w s = .refused (.encodeOversize p.length) := by
  unfold sessionSend
  rw [if_neg ((sendsOut_iff s c).1 h)]
  cases w with
  | written =>
    obtain ⟨mk, hform, hmk⟩ := instrOfCommand_form c
    simp only [hmk]
    exact hform.exec_of_oversize .send s hp
  | failed n => simp only [encodeFrame_of_oversize c hp]

theorem transportFault_of_open {s : State} (k : TransportFault) (h : s.session ≠ .idle) :
    transportFault k s = (s.observe (.transportFault k)).setFailed true := by
  rw [transportFault, decide_eq_true h]

theorem transportFault_of_idle {s : State} (k : TransportFault) (h : s.session = .idle) :
    transportFault k s = (s.observe (.transportFault k)).setFailed false := by
  rw [transportFault, decide_eq_false (not_not.2 h)]

theorem reportChunk_of_failed {s : State} (k : Nat) (h : s.failed = true) : reportChunk k s = .next s :=
  if_pos h

theorem reportChunk_of_sound {s : State} (k : Nat) (h : s.failed = false) :
    reportChunk k s = .next (s.observe (.chunkProgress k)) :=
  if_neg (by simp [h])

/-! ### The start and the end of an operation (43 R163, R164, R167) -/

theorem beginSession_of_idle {s : State} (k : SessionKind) (h : s.session = .idle) :
    beginSession k s = .next ((((openSession k s).setRunning true).setFailed false).setTaskFailed false) := by
  rw [beginSession, h]

theorem beginSession_of_busy {s : State} (k : SessionKind) (h : s.session ≠ .idle) :
    beginSession k s = .refused .sessionBusy := by
  unfold beginSession
  split
  case h_1 hidle => exact absurd hidle h
  all_goals rfl

theorem beginSession_eq_next {k : SessionKind} {s t : State} (h : beginSession k s = .next t) :
    s.session = .idle ∧ t = (((openSession k s).setRunning true).setFailed false).setTaskFailed false := by
  by_cases hidle : s.session = .idle
  · rw [beginSession_of_idle k hidle] at h
    cases h; exact ⟨hidle, rfl⟩
  · rw [beginSession_of_busy k hidle] at h; cases h

theorem openFails_of_idle {s : State} (h : s.session = .idle) : openFails s = .next (transportFault .openFailed s) := by
  rw [openFails, h]

theorem openFails_eq_next {s t : State} (h : openFails s = .next t) :
    s.session = .idle ∧ t = transportFault .openFailed s := by
  cases hs : s.session <;> rw [openFails, hs] at h <;> cases h
  exact ⟨rfl, rfl⟩

/-- The Reader Task starts alive with an empty accumulator, and the buffer as the open parameter decides (70 R214). -/
theorem startReader_eq (s : State) :
    startReader s = { s with
      buf := if Config.resetPerOperation then [] else s.buf
      accum := []
      taskAlive := true } := by
  unfold startReader
  split <;> rfl

/-- What a Record reports at its end is all the report changes. -/
theorem reportRecording_eq (s : State) : ∃ os, reportRecording s = { s with observations := os } := by
  unfold reportRecording
  split_ifs
  · exact ⟨s.observations, rfl⟩
  · exact ⟨_, rfl⟩
  · exact ⟨_, rfl⟩

theorem endSession_of_idle {s : State} (h : s.session = .idle) : endSession s = .next s := by
  rw [endSession, h]

theorem endSession_of_handshaking {s : State} (h : s.session = .handshaking) : endSession s = .next (closeSession s) := by
  rw [endSession, h]

theorem endSession_of_loops {s : State} (hsession : s.session = .recording ∨ s.session = .playing)
    (h : readerLoops s = true) : endSession s = .fault .joinBeforeStop := by
  rcases hsession with hs | hs <;> rw [endSession, hs] <;> exact if_pos h

theorem endSession_of_recording {s : State} (hs : s.session = .recording) (h : readerLoops s = false) :
    endSession s = .next (closeSession (((reportRecording s).setTask false).setAccum [])) := by
  rw [endSession, hs]
  exact if_neg (by simp [h])

theorem endSession_of_playing {s : State} (hs : s.session = .playing) (h : readerLoops s = false) :
    endSession s = .next (closeSession ((s.setTask false).setAccum [])) := by
  rw [endSession, hs]
  exact if_neg (by simp [h])

/-- A join that completes changes nothing or closes the operation, its buffer and parameters as they were. -/
theorem endSession_eq_next {s t : State} (h : endSession s = .next t) :
    (s.session = .idle ∧ t = s) ∨ (s.session = .handshaking ∧ t = closeSession s)
    ∨ ∃ u, t = closeSession u ∧ u.buf = s.buf ∧ u.params = s.params ∧ u.taskAlive = false := by
  cases hs : s.session with
  | idle =>
    rw [endSession_of_idle hs] at h
    cases h; exact .inl ⟨rfl, rfl⟩
  | handshaking =>
    rw [endSession_of_handshaking hs] at h
    cases h; exact .inr (.inl ⟨rfl, rfl⟩)
  | recording =>
    cases hloops : readerLoops s with
    | true => rw [endSession_of_loops (.inl hs) hloops] at h; cases h
    | false =>
      rw [endSession_of_recording hs hloops] at h
      cases h
      obtain ⟨os, hreport⟩ := reportRecording_eq s
      exact .inr (.inr ⟨_, rfl, by rw [hreport]; rfl, by rw [hreport]; rfl, rfl⟩)
  | playing =>
    cases hloops : readerLoops s with
    | true => rw [endSession_of_loops (.inr hs) hloops] at h; cases h
    | false =>
      rw [endSession_of_playing hs hloops] at h
      cases h
      exact .inr (.inr ⟨_, rfl, rfl, rfl, rfl⟩)

/-- A join completes unless the Reader Task of a Record or Play still loops. -/
theorem endSession_completes {s : State} (h : s.session = .idle ∨ s.session = .handshaking ∨ readerLoops s = false) :
    ∃ t, endSession s = .next t ∧ t.session = .idle := by
  cases hs : s.session with
  | idle => exact ⟨s, endSession_of_idle hs, hs⟩
  | handshaking => exact ⟨_, endSession_of_handshaking hs, rfl⟩
  | recording => exact ⟨_, endSession_of_recording hs (by simpa [hs] using h), rfl⟩
  | playing => exact ⟨_, endSession_of_playing hs (by simpa [hs] using h), rfl⟩

/-! ### What the controller's moves between start and join do -/

/-- A move of the Session Controller that neither starts nor joins an operation (43 R163, R164). -/
def ControllerMove (e : Event) : Prop :=
  (∃ c p w, e = .send c p w) ∨ (∃ k, e = .reportChunk k) ∨ e = .openFails ∨ e = .stopSession

/-- What such a move writes: bytes handed to the transport, observations, and the controller's own two flags. -/
structure ControllerEffect where
  sent : List Byte := []
  seen : List Observation := []
  running : Bool
  failed : Bool

/-- The state after it. -/
def State.control (s : State) (x : ControllerEffect) : State :=
  { s with
    wireOut := s.wireOut ++ x.sent
    observations := s.observations ++ x.seen
    running := x.running
    failed := x.failed }

theorem control_none (s : State) : s.control { running := s.running, failed := s.failed } = s := by
  simp [State.control]

theorem pushWire_eq_control (s : State) (bytes : List Byte) :
    s.pushWire bytes = s.control { sent := bytes, running := s.running, failed := s.failed } := by
  simp [State.control, State.pushWire]

theorem observe_eq_control (s : State) (o : Observation) :
    s.observe o = s.control { seen := [o], running := s.running, failed := s.failed } := by
  simp [State.control, State.observe]

theorem setRunning_eq_control (s : State) (x : Bool) : s.setRunning x = s.control { running := x, failed := s.failed } := by
  simp [State.control, State.setRunning]

theorem transportFault_eq_control (k : TransportFault) (s : State) (bytes : List Byte) :
    transportFault k (s.pushWire bytes) = s.control
      { sent := bytes
        seen := [.transportFault k]
        running := s.running
        failed := decide (s.session ≠ .idle) } := rfl

theorem openFailed_eq_control {s : State} (h : s.session = .idle) :
    transportFault .openFailed s = s.control
      { seen := [.transportFault .openFailed]
        running := s.running
        failed := false } := by
  rw [transportFault_of_idle _ h]
  simp [State.control, State.observe, State.setFailed]

theorem sendsOut_congr {s u : State} (hsession : u.session = s.session) (hfailed : u.failed = s.failed) (c : Byte) :
    sendsOut u c ↔ sendsOut s c := by
  rw [sendsOut, sendsOut, hsession, hfailed]

/-- A send that completes has an effect, which it has in every state with the same session and failure note. -/
theorem sessionSend_eq_next {c : Byte} {p : List Byte} {w : WriteResult} {s t : State} (h : sessionSend c p w s = .next t) :
    ∃ x : ControllerEffect, t = s.control x ∧ x.running = s.running
      ∧ (x.failed = true → s.failed = true ∨ s.session ≠ .idle)
      ∧ ∀ u : State, u.session = s.session → u.running = s.running → u.failed = s.failed →
        sessionSend c p w u = .next (u.control x) := by
  by_cases hout : sendsOut s c
  · rcases Nat.lt_or_ge 65535 p.length with hover | hp
    · rw [sessionSend_of_oversize w hout hover] at h; cases h
    · cases w with
      | written =>
        rw [sessionSend_written hout hp] at h
        cases h
        refine ⟨_, pushWire_eq_control s _, rfl, .inl, fun u hsession hrunning hfailed => ?_⟩
        rw [sessionSend_written ((sendsOut_congr hsession hfailed c).2 hout) hp, pushWire_eq_control, hrunning, hfailed]
      | failed n =>
        rw [sessionSend_failing n hout hp] at h
        cases h
        refine ⟨_, transportFault_eq_control _ s _, rfl, fun hx => .inr (of_decide_eq_true hx),
          fun u hsession hrunning hfailed => ?_⟩
        rw [sessionSend_failing n ((sendsOut_congr hsession hfailed c).2 hout) hp, transportFault_eq_control, hrunning,
          hsession]
  · obtain ⟨hfail, hstop⟩ := not_not.1 ((sendsOut_iff s c).not.1 hout)
    rw [sessionSend_of_failed p w hfail hstop] at h
    cases h
    refine ⟨_, (control_none s).symm, rfl, .inl, fun u hsession hrunning hfailed => ?_⟩
    rw [sessionSend_of_failed p w (hfailed.trans hfail) (hsession ▸ hstop), ← hrunning, ← hfailed, control_none]

/-- Every such move has an effect, which it has in every state with the same session and flags: it reads nothing else. It
raises no flag, and fails an open operation only. -/
theorem controllerMove_eq_next {e : Event} {s t : State} (he : ControllerMove e) (h : runEvent e s = .next t) :
    ∃ x : ControllerEffect, t = s.control x
      ∧ (x.running = true → s.running = true) ∧ (e ≠ .stopSession → x.running = s.running)
      ∧ (x.failed = true → s.failed = true ∨ s.session ≠ .idle)
      ∧ ∀ u : State, u.session = s.session → u.running = s.running → u.failed = s.failed →
        runEvent e u = .next (u.control x) := by
  rcases he with ⟨c, p, w, rfl⟩ | ⟨k, rfl⟩ | rfl | rfl
  · obtain ⟨x, ht, hrun, hfail, hall⟩ := sessionSend_eq_next h
    exact ⟨x, ht, fun hx => hrun ▸ hx, fun _ => hrun, hfail, hall⟩
  · change reportChunk k s = _ at h
    cases hs : s.failed with
    | true =>
      rw [reportChunk_of_failed k hs] at h
      cases h
      refine ⟨_, (control_none s).symm, id, fun _ => rfl, fun _ => .inl rfl, fun u _ hrunning hfailed => ?_⟩
      rw [← hrunning, hs, ← hfailed, control_none]
      exact reportChunk_of_failed k hfailed
    | false =>
      rw [reportChunk_of_sound k hs] at h
      cases h
      refine ⟨_, observe_eq_control s _, id, fun _ => rfl, fun hx => .inl (hs ▸ hx), fun u _ hrunning hfailed => ?_⟩
      rw [← hrunning, hs, ← hfailed, ← observe_eq_control]
      exact reportChunk_of_sound k hfailed
  · obtain ⟨hidle, rfl⟩ := openFails_eq_next h
    refine ⟨_, openFailed_eq_control hidle, id, fun _ => rfl, nofun, fun u hsession hrunning _ => ?_⟩
    rw [← hrunning, ← openFailed_eq_control (hsession.trans hidle)]
    exact openFails_of_idle (hsession.trans hidle)
  · cases h
    refine ⟨_, setRunning_eq_control s false, nofun, fun hne => absurd rfl hne, .inl, fun u _ _ hfailed => ?_⟩
    rw [← hfailed, ← setRunning_eq_control]; rfl

/-- Every move is one of these, an instruction, a turn of the Reader Task, a start or a join. -/
theorem Event.kinds (e : Event) :
    ControllerMove e ∨ (∃ i, e = .op i) ∨ (∃ r, e = .read r) ∨ (∃ k, e = .startSession k) ∨ e = .joinSession := by
  cases e with
  | op i => exact .inr (.inl ⟨i, rfl⟩)
  | read r => exact .inr (.inr (.inl ⟨r, rfl⟩))
  | send c p w => exact .inl (.inl ⟨c, p, w, rfl⟩)
  | openFails => exact .inl (.inr (.inr (.inl rfl)))
  | startSession k => exact .inr (.inr (.inr (.inl ⟨k, rfl⟩)))
  | reportChunk k => exact .inl (.inr (.inl ⟨k, rfl⟩))
  | stopSession => exact .inl (.inr (.inr (.inr rfl)))
  | joinSession => exact .inr (.inr (.inr (.inr rfl)))

/-! ### The invariant -/

/-- No turn takes the buffer over its capacity, and one that ends on an error belongs to an open Record or Play. -/
theorem readerTurn_keeps_inv {r : ReadResult} {s t : State} (hs : Inv s) (h : readerTurn r s = .next t) :
    Inv t ∧ t.params = s.params := by
  obtain ⟨hwf, hcap, hrun, htask, hfail, htaskFail⟩ := hs
  rcases readerTurn_eq_next h with ⟨-, rfl⟩ | ⟨-, -, rfl⟩ |
    ⟨halive, -, ⟨-, rfl⟩ | ⟨-, rfl⟩ | ⟨x, -, hfits, rfl⟩⟩
  · exact ⟨⟨hwf, hcap, hrun, htask, hfail, htaskFail⟩, rfl⟩
  · exact ⟨⟨hwf, hcap, hrun, nofun, hfail, htaskFail⟩, rfl⟩
  · exact ⟨⟨hwf, hcap, hrun, nofun, hfail, fun _ => htask halive⟩, rfl⟩
  · exact ⟨⟨hwf, hcap, hrun, htask, hfail, htaskFail⟩, rfl⟩
  · refine ⟨⟨hwf, fun cap hc => ?_, hrun, htask, hfail, htaskFail⟩, rfl⟩
    have hroom := hfits cap hc
    have hlen := (drainBuf_suffix s.params (s.buf ++ x)).length_le
    rw [List.length_append] at hlen
    exact hlen.trans hroom

/-- A start leaves the parameters, and the buffer as it was or empty. -/
theorem openSession_buf_le (k : SessionKind) (s : State) :
    (openSession k s).params = s.params ∧ (openSession k s).buf.length ≤ s.buf.length := by
  have hreader : (startReader s).params = s.params ∧ (startReader s).buf.length ≤ s.buf.length := by
    rw [startReader_eq]
    refine ⟨rfl, ?_⟩
    show (if _ then _ else _ : List Byte).length ≤ _
    split
    · exact Nat.zero_le _
    · exact Nat.le_refl _
  cases k with
  | handshake => exact ⟨rfl, Nat.le_refl _⟩
  | record => exact hreader
  | play => exact hreader

theorem runEvent_keeps_inv {e : Event} {s t : State} (hs : Inv s) (h : runEvent e s = .next t) :
    Inv t ∧ t.params = s.params := by
  obtain ⟨hwf, hcap, hrun, htask, hfail, htaskFail⟩ := hs
  rcases e.kinds with hmove | ⟨i, rfl⟩ | ⟨r, rfl⟩ | ⟨k, rfl⟩ | rfl
  · obtain ⟨x, rfl, hxrun, -, hxfail, -⟩ := controllerMove_eq_next hmove h
    exact ⟨⟨hwf, hcap, fun hx => hrun (hxrun hx), htask, fun hx => (hxfail hx).elim hfail id, htaskFail⟩, rfl⟩
  · have hcap' := exec_withinCap h hcap
    obtain ⟨x, rfl, -⟩ := exec_eq_next h
    exact ⟨⟨hwf, hcap', hrun, htask, hfail, htaskFail⟩, rfl⟩
  · exact readerTurn_keeps_inv ⟨hwf, hcap, hrun, htask, hfail, htaskFail⟩ h
  · obtain ⟨hidle, rfl⟩ := beginSession_eq_next h
    obtain ⟨hparams, hlen⟩ := openSession_buf_le k s
    have hdead : s.taskAlive ≠ true := fun halive => by simpa [hidle] using htask halive
    refine ⟨⟨by simpa [hparams] using hwf, fun cap hc => hlen.trans (hcap cap (hparams ▸ hc)), ?_, ?_, nofun, nofun⟩,
      hparams⟩
    · cases k <;> nofun
    · cases k with
      | handshake => exact fun halive => absurd halive hdead
      | record => exact fun _ => .inl rfl
      | play => exact fun _ => .inr rfl
  · rcases endSession_eq_next h with ⟨-, rfl⟩ | ⟨hhand, rfl⟩ | ⟨u, rfl, hbuf, hparams, hdead⟩
    · exact ⟨⟨hwf, hcap, hrun, htask, hfail, htaskFail⟩, rfl⟩
    · have hdead : s.taskAlive ≠ true := fun halive => by simpa [hhand] using htask halive
      exact ⟨⟨hwf, hcap, nofun, fun halive => absurd halive hdead, nofun, nofun⟩, rfl⟩
    · have hcap' : withinCap (closeSession u) := fun cap hc => by
        rw [show (closeSession u).buf = s.buf from hbuf]
        exact hcap cap (hparams ▸ hc)
      have hwf' : (closeSession u).params.wf = true := by
        rw [show (closeSession u).params = s.params from hparams]; exact hwf
      refine ⟨⟨hwf', hcap', nofun, fun halive => ?_, nofun, nofun⟩, hparams⟩
      rw [show (closeSession u).taskAlive = u.taskAlive from rfl, hdead] at halive
      cases halive

/-! ### Steps -/

theorem step_of_empty {s : State} (h : s.script = []) : step s = .next s := by
  rw [step, runNext, h]

theorem step_of_cons {s : State} {e : Event} {rest : List Event} (h : s.script = e :: rest) :
    step s = runEvent e (s.setScript rest) := by
  rw [step, runNext, h]

/-! ### The statements -/

/-- Settles O44: a step is the next move of the script, and every move keeps the invariant. -/
theorem stepKeepsInvariant : Obligations.StepKeepsInvariant := by
  intro s t hs h
  cases hscript : s.script with
  | nil =>
    rw [step_of_empty hscript] at h
    cases h; exact ⟨hs, rfl⟩
  | cons e rest =>
    rw [step_of_cons hscript] at h
    exact runEvent_keeps_inv (s := s.setScript rest) hs h

/-- Settles O45. -/
theorem resetMeetsInvariant : Obligations.ResetMeetsInvariant :=
  ⟨rfl, nofun, nofun, nofun, nofun, nofun⟩

/-- Settles O37: a read that decodes to a command is taken as that command. -/
theorem stepRunsDecodedInstr : Obligations.StepRunsDecodedInstr := by
  refine ⟨fun s bytes rest i halive hrunning hscript hdecode => ?_, fun s rest i hscript => step_of_cons hscript,
    fun s hscript => step_of_empty hscript⟩
  have htake : takeChunk bytes (s.setScript rest) = exec i (s.setScript rest) := by rw [takeChunk, hdecode]
  rw [step_of_cons hscript]
  refine (readerTurn_data (s := s.setScript rest) halive hrunning bytes).trans ?_
  rw [← takeChunk_eq_feed, htake]; rfl

/-- Settles O51. -/
theorem readerTaskEnds : Obligations.ReaderTaskEnds :=
  fun _ r halive => ⟨readerTurn_of_stopped r halive, readerTurn_error halive, readerTurn_timeout halive⟩

/-- Settles O52. -/
theorem transportFaultIsFatal : Obligations.TransportFaultIsFatal := by
  intro s
  refine ⟨fun c p n hopen hout hp => ?_, fun hidle => ?_, fun c p w => sessionSend_of_failed p w,
    fun c p hout hp => sessionSend_written hout hp, reportChunk_of_failed⟩
  · refine (sessionSend_failing n hout hp).trans ?_
    rw [transportFault_of_open (s := s.pushWire _) _ hopen]; rfl
  · refine (openFails_of_idle hidle).trans ?_
    rw [transportFault_of_idle _ hidle]; rfl

/-- Settles O57: only the start raises the flag, only the stop and the join clear it. -/
theorem flagTransitionsOncePerOperation : Obligations.FlagTransitionsOncePerOperation := by
  refine ⟨?_, ?_, fun k s => beginSession_of_busy k, fun s => rfl, ?_, ?_⟩
  · rintro s ⟨-, -, hrun, -⟩ hidle
    exact Bool.eq_false_iff.2 fun hrunning => hrun hrunning hidle
  · intro k s hidle
    refine ⟨_, beginSession_of_idle k hidle, rfl, ?_⟩
    cases k <;> nofun
  · intro s t hopen h
    rcases endSession_eq_next h with ⟨hidle, -⟩ | ⟨-, rfl⟩ | ⟨u, rfl, -⟩
    · exact absurd hidle hopen
    · exact ⟨rfl, rfl⟩
    · exact ⟨rfl, rfl⟩
  · intro e s t h hstart hstop hjoin
    rcases e.kinds with hmove | ⟨i, rfl⟩ | ⟨r, rfl⟩ | ⟨k, rfl⟩ | rfl
    · obtain ⟨x, rfl, -, hx, -⟩ := controllerMove_eq_next hmove h
      exact hx hstop
    · obtain ⟨x, rfl, -⟩ := exec_eq_next h
      rfl
    · rcases readerTurn_eq_next h with ⟨-, rfl⟩ | ⟨-, -, rfl⟩ | ⟨-, -, ⟨-, rfl⟩ | ⟨-, rfl⟩ | ⟨x, -, -, rfl⟩⟩ <;> rfl
    · exact absurd rfl (hstart k)
    · exact absurd rfl hjoin

/-- Settles O58. -/
theorem joinCompletesUnlessReaderLoops : Obligations.JoinCompletesUnlessReaderLoops := by
  intro s
  have hcompletes : s.taskAlive = false ∨ s.running = false ∨ s.session = .handshaking ∨ s.session = .idle →
      ∃ t, endSession s = .next t ∧ t.session = .idle := by
    rintro (hdead | hstopped | hhand | hidle)
    · exact endSession_completes (.inr (.inr (by simp [readerLoops, hdead])))
    · exact endSession_completes (.inr (.inr (by simp [readerLoops, hstopped])))
    · exact endSession_completes (.inr (.inl hhand))
    · exact endSession_completes (.inl hidle)
  refine ⟨⟨fun hfault => ?_, fun ⟨halive, hrunning, hopen⟩ => ?_⟩, hcompletes, endSession_of_idle⟩
  · have hnever : ¬ (s.taskAlive = false ∨ s.running = false ∨ s.session = .handshaking ∨ s.session = .idle) := fun h => by
      obtain ⟨t, ht, -⟩ := hcompletes h
      cases hfault.symm.trans ht
    simp only [not_or, Bool.not_eq_false] at hnever
    obtain ⟨halive, hrunning, hhand, hidle⟩ := hnever
    refine ⟨halive, hrunning, ?_⟩
    cases hs : s.session with
    | idle => exact absurd hs hidle
    | handshaking => exact absurd hs hhand
    | recording => exact .inl rfl
    | playing => exact .inr rfl
  · exact endSession_of_loops hopen ((readerLoops_eq_true_iff s).2 ⟨hrunning, halive⟩)

/-- Settles O59: the effects of the controller's moves and of the task's turns are said of what each reads. -/
theorem readerAndControllerShareNoMore : Obligations.ReaderAndControllerShareNoMore := by
  refine ⟨?_, ?_, ?_⟩
  · intro e s t b a rs os alive failed hmove h
    obtain ⟨x, rfl, -, -, -, hall⟩ := controllerMove_eq_next hmove h
    exact ⟨rfl, rfl, rfl, rfl, rfl, x.seen, rfl, hall _ rfl rfl rfl⟩
  · intro k s t b a rs os alive failed h
    obtain ⟨hidle, rfl⟩ := beginSession_eq_next h
    have hstart := beginSession_of_idle k (s := { s with
      buf := b, results := rs, accum := a, observations := os, taskAlive := alive, taskFailed := failed }) hidle
    refine hstart.trans ?_
    cases k with
    | handshake => rfl
    | record => rw [if_neg nofun, openSession, openSession, startReader_eq, startReader_eq]; rfl
    | play => rw [if_neg nofun, openSession, openSession, startReader_eq, startReader_eq]; rfl
  · intro r s t k failed w os es h
    rcases readerTurn_eq_next h with ⟨halive, rfl⟩ | ⟨halive, hstop, rfl⟩ |
      ⟨halive, hrun, ⟨rfl, rfl⟩ | ⟨rfl, rfl⟩ | ⟨x, rfl, hfits, rfl⟩⟩
    · refine ⟨rfl, rfl, rfl, rfl, rfl, [], (List.append_nil _).symm, ?_⟩
      rw [List.append_nil]
      refine readerTurn_of_dead r ?_
      exact halive
    · refine ⟨rfl, rfl, rfl, rfl, rfl, [], (List.append_nil _).symm, ?_⟩
      rw [List.append_nil]
      refine readerTurn_of_stopped r ?_ ?_
      · exact halive
      · exact hstop
    · refine ⟨rfl, rfl, rfl, rfl, rfl, [.transportFault .readFailed], rfl, readerTurn_error ?_ ?_⟩
      · exact halive
      · exact hrun
    · refine ⟨rfl, rfl, rfl, rfl, rfl, [], (List.append_nil _).symm, ?_⟩
      rw [List.append_nil]
      refine readerTurn_timeout ?_ ?_
      · exact halive
      · exact hrun
    · refine ⟨rfl, rfl, rfl, List.append_nil _, rfl, _, rfl, ?_⟩
      refine Eq.trans (readerTurn_data ?_ ?_ x) (feed_eq_next_iff.2 ⟨?_, ?_⟩)
      · exact halive
      · exact hrun
      · exact hfits
      · simp [State.apply, drainEffect]

end Sys2Proof.Machine
end

section
/-! PROOFS. The pieces of a Play's source, 42_wire_commands R151. -/
namespace Sys2Proof.Machine

/-! ### Cutting a source -/

/-- A bound of at least the number of bytes leaves no piece out. -/
theorem chunksUpTo_fuel {k : Nat} (hk : 0 < k) (m n : Nat) (src : List Byte) (hm : src.length ≤ m) (hn : src.length ≤ n) :
    chunksUpTo k m src = chunksUpTo k n src := by
  induction m generalizing n src with
  | zero =>
    obtain rfl : src = [] := List.length_eq_zero_iff.1 (Nat.le_zero.1 hm)
    cases n <;> rfl
  | succ m ih =>
    cases n with
    | zero =>
      obtain rfl : src = [] := List.length_eq_zero_iff.1 (Nat.le_zero.1 hn)
      rfl
    | succ n =>
      rw [chunksUpTo, chunksUpTo, ih n (src.drop k) (by rw [List.length_drop]; omega) (by rw [List.length_drop]; omega)]

theorem chunksOf_nil (k : Nat) : chunksOf k [] = [] := rfl

theorem chunksOf_of_ne_nil {k : Nat} (hk : 0 < k) {src : List Byte} (h : src ≠ []) :
    chunksOf k src = src.take k :: chunksOf k (src.drop k) := by
  cases src with
  | nil => exact absurd rfl h
  | cons x t =>
    have hlen : ((x :: t).drop k).length ≤ t.length := by
      rw [List.length_drop, List.length_cons]; omega
    have hrest := chunksUpTo_fuel hk t.length ((x :: t).drop k).length ((x :: t).drop k) hlen (Nat.le_refl _)
    rw [chunksOf, chunksOf, ← hrest]; rfl

/-- Induction over the pieces. -/
theorem chunks_induction {k : Nat} (hk : 0 < k) {motive : List Byte → Prop} (nil : motive [])
    (piece : ∀ src, src ≠ [] → motive (src.drop k) → motive src) (src : List Byte) : motive src := by
  induction hn : src.length using Nat.strong_induction_on generalizing src with
  | _ n ih =>
    by_cases h : src = []
    · exact h ▸ nil
    · have hpos := List.length_pos_iff.2 h
      exact piece src h (ih (src.drop k).length (by rw [List.length_drop]; omega) (src.drop k) rfl)

/-! ### Their number and sizes -/

theorem chunksOf_flatten {k : Nat} (hk : 0 < k) (src : List Byte) : (chunksOf k src).flatten = src := by
  induction src using chunks_induction hk with
  | nil => rfl
  | piece src h ih => rw [chunksOf_of_ne_nil hk h, List.flatten_cons, ih, List.take_append_drop]

theorem chunksOf_length {k : Nat} (hk : 0 < k) (src : List Byte) :
    (chunksOf k src).length = (src.length + k - 1) / k := by
  induction src using chunks_induction hk with
  | nil => rw [chunksOf_nil]; exact (Nat.div_eq_of_lt (by simp; omega)).symm
  | piece src h ih =>
    have hpos := List.length_pos_iff.2 h
    rw [chunksOf_of_ne_nil hk h, List.length_cons, ih, List.length_drop]
    rcases Nat.le_total k src.length with hle | hle
    · rw [show src.length + k - 1 = src.length - k + k - 1 + k by omega, Nat.add_div_right _ hk]
    · rw [show src.length + k - 1 = src.length - 1 + k by omega, Nat.add_div_right _ hk,
        Nat.div_eq_of_lt (show src.length - 1 < k by omega), Nat.div_eq_of_lt (by omega)]

theorem chunksOf_sizes {k : Nat} (hk : 0 < k) (src : List Byte) : ∀ c ∈ chunksOf k src, 1 ≤ c.length ∧ c.length ≤ k := by
  induction src using chunks_induction hk with
  | nil => nofun
  | piece src h ih =>
    have hpos := List.length_pos_iff.2 h
    rw [chunksOf_of_ne_nil hk h]
    refine List.forall_mem_cons.2 ⟨?_, ih⟩
    rw [List.length_take]; omega

theorem chunksOf_dropLast_sizes {k : Nat} (hk : 0 < k) (src : List Byte) : ∀ c ∈ (chunksOf k src).dropLast, c.length = k := by
  induction src using chunks_induction hk with
  | nil => nofun
  | piece src h ih =>
    rw [chunksOf_of_ne_nil hk h]
    by_cases hrest : src.drop k = []
    · rw [hrest, chunksOf_nil]; nofun
    · have hne : chunksOf k (src.drop k) ≠ [] := by rw [chunksOf_of_ne_nil hk hrest]; nofun
      rw [List.dropLast_cons_of_ne_nil hne]
      refine List.forall_mem_cons.2 ⟨List.length_take_of_le ?_, ih⟩
      exact Nat.le_of_lt (Nat.lt_of_not_le fun hle => hrest (List.drop_eq_nil_iff.2 hle))

/-- The sizes of `n + 1` pieces: all but the last are full, and the last has what is left. -/
theorem chunksOf_map_length {k n : Nat} (hk : 0 < k) {src : List Byte} (hlen : (chunksOf k src).length = n + 1) :
    (chunksOf k src).map List.length = List.replicate n k ++ [src.length - n * k] := by
  have hne : chunksOf k src ≠ [] := by rintro h; rw [h] at hlen; cases hlen
  have hsplit := List.dropLast_append_getLast hne
  have hfull : (chunksOf k src).dropLast.map List.length = List.replicate n k := by
    refine List.eq_replicate_iff.2 ⟨by simp [hlen], fun b hb => ?_⟩
    obtain ⟨c, hc, rfl⟩ := List.mem_map.1 hb
    exact chunksOf_dropLast_sizes hk src c hc
  have hsum : src.length = n * k + ((chunksOf k src).getLast hne).length := by
    have htotal := List.length_flatten (L := chunksOf k src)
    rw [chunksOf_flatten hk, ← hsplit, List.map_append, hfull] at htotal
    simpa using htotal
  rw [← hsplit, List.map_append, hfull, hsum]
  simp

/-- Settles O47. -/
theorem playChunkCounts : Obligations.PlayChunkCounts := by
  refine ⟨fun k src hk => ⟨chunksOf_length hk src, chunksOf_flatten hk src, chunksOf_sizes hk src,
    chunksOf_dropLast_sizes hk src⟩, fun src hsrc => ?_⟩
  have hfive : (chunksOf 512 src).length = 4 + 1 := by rw [chunksOf_length (by decide), hsrc]
  rw [chunksOf_map_length (by decide) hfive, hsrc]; rfl

end Sys2Proof.Machine
end

section
/-! PROOFS. The operations of the Session Controller from start to join, 43_host_environment R163 to R169 and 70 R225. -/
namespace Sys2Proof.Machine

/-! ### Lists of moves -/

theorem runEvents_cons (e : Event) (es : List Event) (s : State) :
    runEvents (e :: es) s = andThen (runEvent e s) (runEvents es) := rfl

theorem runEvents_append (es fs : List Event) (s : State) :
    runEvents (es ++ fs) s = andThen (runEvents es s) (runEvents fs) := by
  induction es generalizing s with
  | nil => rfl
  | cons e es ih =>
    rw [List.cons_append, runEvents_cons, runEvents_cons, andThen_assoc]
    congr 1
    exact funext ih

theorem runEvent_sendOk {s : State} {c : Byte} {p : List Byte} (h : sendsOut s c) (hp : p.length ≤ 65535) :
    runEvent (sendOk c p) s = .next (s.pushWire (frameBytes c p (frameChecksum c p))) :=
  sessionSend_written h hp

theorem runEvent_sendOk_empty {s : State} {c : Byte} (h : sendsOut s c) :
    runEvent (sendOk c []) s = .next (s.pushWire [0xAA, 0x55, c, 0x00, 0x00, c]) := by
  rw [runEvent_sendOk h (Nat.zero_le _), frameBytes_empty]

theorem andThen_runEvents_nil (o : Host.Outcome State Fault Refusal) : andThen o (runEvents []) = o := by
  cases o <;> rfl

theorem runEvents_stop_join (s : State) : runEvents [.stopSession, .joinSession] s = endSession (s.setRunning false) :=
  andThen_runEvents_nil _

/-! ### Opening and closing a Record or a Play -/

/-- The state in which a Record or a Play has just started. -/
def State.opened (s : State) (x : Session) : State :=
  { s with
    buf := if Config.resetPerOperation then [] else s.buf
    accum := []
    running := true
    taskAlive := true
    session := x
    failed := false
    taskFailed := false }

theorem opened_buf (s : State) (x : Session) : (s.opened x).buf = s.buf ∨ (s.opened x).buf = [] := by
  unfold State.opened
  cases Config.resetPerOperation
  · exact .inl rfl
  · exact .inr rfl

theorem runEvent_startRecord {s : State} (h : s.session = .idle) :
    runEvent (.startSession .record) s = .next (s.opened .recording) := by
  refine (beginSession_of_idle .record h).trans ?_
  rw [openSession, startReader_eq]; rfl

theorem runEvent_startPlay {s : State} (h : s.session = .idle) :
    runEvent (.startSession .play) s = .next (s.opened .playing) := by
  refine (beginSession_of_idle .play h).trans ?_
  rw [openSession, startReader_eq]; rfl

theorem runEvents_recordStart {s : State} (h : s.session = .idle) :
    runEvents recordStartScript s = .next ((s.opened .recording).pushWire [0xAA, 0x55, 0x01, 0x00, 0x00, 0x01]) := by
  rw [recordStartScript, runEvents_cons, runEvent_startRecord h, andThen_next, runEvents_cons,
    runEvent_sendOk_empty (.inl rfl)]; rfl

/-- A Play opens with its format and its start command. -/
theorem runEvents_playStart {s : State} (h : s.session = .idle) (fmt : AudioFormat) :
    runEvents [.startSession .play, sendOk 0x08 [fmt.tag], sendOk 0x04 []] s =
      .next (((s.opened .playing).pushWire (frameBytes 0x08 [fmt.tag] (frameChecksum 0x08 [fmt.tag]))).pushWire
        [0xAA, 0x55, 0x04, 0x00, 0x00, 0x04]) := by
  have htag : [fmt.tag].length ≤ 65535 := show 1 ≤ 65535 by decide
  rw [runEvents_cons, runEvent_startPlay h, andThen_next, runEvents_cons, runEvent_sendOk (.inl rfl) htag, andThen_next,
    runEvents_cons, runEvent_sendOk_empty (.inl rfl)]; rfl

/-- The state in which a Record or a Play has been closed with its stop command. -/
def State.closed (s : State) (stop : Byte) : State :=
  { s with
    wireOut := s.wireOut ++ [0xAA, 0x55, stop, 0x00, 0x00, stop]
    running := false
    taskAlive := false
    failed := false
    taskFailed := false
    session := .idle
    accum := [] }

/-- A Record or a Play, failed or not, sends its stop command (70 R225) and drops the flag, and comes to its join. -/
theorem runEvents_stopScript {s : State} {stop : Byte} (h : stopCommand s.session = some stop) :
    runEvents [sendOk stop [], .stopSession, .joinSession] s =
      endSession ((s.pushWire [0xAA, 0x55, stop, 0x00, 0x00, stop]).setRunning false) := by
  rw [runEvents_cons, runEvent_sendOk_empty (.inr h), andThen_next, runEvents_stop_join]

theorem closeSession_eq_closed (s : State) (stop : Byte) :
    closeSession ((((s.pushWire [0xAA, 0x55, stop, 0x00, 0x00, stop]).setRunning false).setTask false).setAccum []) =
      s.closed stop := by
  simp only [closeSession, State.pushWire, State.setRunning, State.setTask, State.setAccum, State.setSession,
    State.setFailed, State.setTaskFailed, State.closed]

theorem runEvents_playStop {s : State} (h : s.session = .playing) :
    runEvents playStopScript s = .next (s.closed 0x05) := by
  rw [playStopScript, runEvents_stopScript (by rw [h]; rfl), endSession_of_playing (by exact h) rfl,
    closeSession_eq_closed]

theorem reportRecording_of_failed {s : State} (h : s.failed = true ∨ s.taskFailed = true) : reportRecording s = s :=
  if_pos h

theorem reportRecording_of_sound {s : State} (hfailed : s.failed = false) (htask : s.taskFailed = false) :
    reportRecording s = s.observe (if s.accum = [] then .noData else .wavHandOver s.accum Config.wavParams) := by
  rw [reportRecording, if_neg (by simp [hfailed, htask])]
  split <;> rfl

/-- The report at the end of a Record does not depend on the stop command or the flag. -/
theorem reportRecording_pushWire_setRunning (s : State) (bytes : List Byte) (x : Bool) :
    reportRecording ((s.pushWire bytes).setRunning x) = ((reportRecording s).pushWire bytes).setRunning x := by
  by_cases h : s.failed = true ∨ s.taskFailed = true
  · rw [reportRecording_of_failed h]; exact reportRecording_of_failed h
  · obtain ⟨hfailed, htask⟩ : s.failed = false ∧ s.taskFailed = false := by simpa using h
    rw [reportRecording_of_sound hfailed htask]; exact reportRecording_of_sound hfailed htask

theorem runEvents_recordStop {s : State} (h : s.session = .recording) :
    runEvents recordStopScript s = .next ((reportRecording s).closed 0x02) := by
  rw [recordStopScript, runEvents_stopScript (by rw [h]; rfl), endSession_of_recording (by exact h) rfl,
    reportRecording_pushWire_setRunning, closeSession_eq_closed]

/-! ### The audio of a Play -/

/-- The state in which the pieces of a Play have been sent, and their indices reported from `k` on. -/
def State.played (s : State) (k : Nat) (pieces : List (List Byte)) : State :=
  { s with
    wireOut := s.wireOut ++ (pieces.map fun c => frameBytes 0x03 c (frameChecksum 0x03 c)).flatten
    observations := s.observations ++ (List.range' k pieces.length).map .chunkProgress }

theorem runEvents_audioSends {s : State} (hfailed : s.failed = false) (k : Nat) {pieces : List (List Byte)}
    (hfit : ∀ c ∈ pieces, c.length ≤ 65535) : runEvents (audioSends k pieces) s = .next (s.played k pieces) := by
  induction pieces generalizing s k with
  | nil => simp [audioSends, runEvents, State.played]
  | cons c cs ih =>
    obtain ⟨hc, hcs⟩ := List.forall_mem_cons.1 hfit
    have hreport : runEvent (.reportChunk k) (s.pushWire (frameBytes 0x03 c (frameChecksum 0x03 c))) = _ :=
      reportChunk_of_sound k hfailed
    have hrest := ih (s := (s.pushWire (frameBytes 0x03 c (frameChecksum 0x03 c))).observe (.chunkProgress k)) hfailed
      (k + 1) hcs
    rw [audioSends, runEvents_cons, runEvent_sendOk (.inl hfailed) hc, andThen_next, runEvents_cons, hreport, andThen_next,
      hrest]
    simp [State.played, State.observe, State.pushWire, List.range'_succ]

/-- A write that fails hands over what the transport took, is surfaced, and fails the Play (43 R166). -/
theorem runEvents_failingSend {s : State} {c : Byte} {p : List Byte} (n : Nat) (hsession : s.session = .playing)
    (hfailed : s.failed = false) (hp : p.length ≤ 65535) :
    runEvents [.send c p (.failed n)] s =
      .next (((s.pushWire ((frameBytes c p (frameChecksum c p)).take n)).observe
        (.transportFault .writeFailed)).setFailed true) := by
  have hopen : s.session ≠ .idle := by rw [hsession]; nofun
  rw [← transportFault_of_open (s := s.pushWire _) _ hopen]
  exact (andThen_runEvents_nil _).trans (sessionSend_failing n (.inl hfailed) hp)

/-- A Play that has failed passes over its remaining pieces (log entry 27). -/
theorem runEvents_audioSends_of_failed {s : State} (hsession : s.session = .playing) (hfailed : s.failed = true) (k : Nat)
    (pieces : List (List Byte)) : runEvents (audioSends k pieces) s = .next s := by
  induction pieces generalizing k with
  | nil => rfl
  | cons c cs ih =>
    have hstop : stopCommand s.session ≠ some 0x03 := by rw [hsession]; decide
    have hsend : runEvent (sendOk 0x03 c) s = .next s := sessionSend_of_failed c .written hfailed hstop
    have hreport : runEvent (.reportChunk k) s = .next s := reportChunk_of_failed k hfailed
    rw [audioSends, runEvents_cons, hsend, andThen_next, runEvents_cons, hreport, andThen_next, ih]

theorem runEvents_playPieces {s : State} (h : s.session = .idle) (fmt : AudioFormat) {pieces : List (List Byte)}
    (hfit : ∀ c ∈ pieces, c.length ≤ 65535) :
    runEvents (playPieces fmt pieces) s =
      .next (((((s.opened .playing).pushWire (frameBytes 0x08 [fmt.tag] (frameChecksum 0x08 [fmt.tag]))).pushWire
        [0xAA, 0x55, 0x04, 0x00, 0x00, 0x04]).played 0 pieces).closed 0x05) := by
  rw [playPieces, runEvents_append, runEvents_append, runEvents_playStart h fmt, andThen_next,
    runEvents_audioSends rfl 0 hfit, andThen_next, runEvents_playStop rfl]

theorem chunksOf_fit (fmt : AudioFormat) (src : List Byte) : ∀ c ∈ chunksOf fmt.chunkBytes src, c.length ≤ 65535 := by
  intro c hc
  cases fmt with
  | pcm => exact (chunksOf_sizes (k := 512) (by decide) src c hc).2.trans (by decide)
  | mp3 => exact (chunksOf_sizes (k := 1024) (by decide) src c hc).2.trans (by decide)

/-! ### The reads of a Record -/

/-- Over an unbounded buffer a turn of the Reader Task always completes, and leaves session, transport and parameters. -/
theorem readerTurn_unbounded {s : State} (h : s.params.bufCap = none) (r : ReadResult) :
    ∃ t, readerTurn r s = .next t ∧ t.session = s.session ∧ t.wireOut = s.wireOut ∧ t.params = s.params := by
  obtain ⟨t, ht⟩ : ∃ t, readerTurn r s = .next t := by
    cases halive : s.taskAlive with
    | false => exact ⟨_, readerTurn_of_dead r halive⟩
    | true =>
      cases hrunning : s.running with
      | false => exact ⟨_, readerTurn_of_stopped r halive hrunning⟩
      | true =>
        cases r with
        | data x =>
          exact ⟨_, (readerTurn_data halive hrunning x).trans (feed_eq_next_iff.2 ⟨fits_of_unbounded h _, rfl⟩)⟩
        | timeout => exact ⟨_, readerTurn_timeout halive hrunning⟩
        | error => exact ⟨_, readerTurn_error halive hrunning⟩
  refine ⟨t, ht, ?_⟩
  rcases readerTurn_eq_next ht with ⟨-, rfl⟩ | ⟨-, -, rfl⟩ | ⟨-, -, ⟨-, rfl⟩ | ⟨-, rfl⟩ | ⟨x, -, -, rfl⟩⟩
  · exact ⟨rfl, rfl, rfl⟩
  · exact ⟨rfl, rfl, rfl⟩
  · exact ⟨rfl, rfl, rfl⟩
  · exact ⟨rfl, rfl, rfl⟩
  · exact ⟨rfl, List.append_nil _, rfl⟩

theorem runEvents_reads {s : State} (h : s.params.bufCap = none) (reads : List ReadResult) :
    ∃ t, runEvents (reads.map .read) s = .next t ∧ t.session = s.session ∧ t.wireOut = s.wireOut := by
  induction reads generalizing s with
  | nil => exact ⟨s, rfl, rfl, rfl⟩
  | cons r rs ih =>
    obtain ⟨u, hu, husession, huwire, huparams⟩ := readerTurn_unbounded h r
    obtain ⟨t, ht, hsession, hwire⟩ := ih (s := u) (by rw [huparams, h])
    have hstep : runEvent (.read r) s = .next u := hu
    exact ⟨t, by rw [List.map_cons, runEvents_cons, hstep, andThen_next, ht], hsession.trans husession, hwire.trans huwire⟩

/-! ### The statements -/

/-- Settles O46. -/
theorem handshakeSendsOneFrame : Obligations.HandshakeSendsOneFrame := by
  intro s h
  have hopen : runEvents (handshakeScript.take 2) s = .next { s with
      wireOut := s.wireOut ++ [0xAA, 0x55, 0x06, 0x00, 0x00, 0x06]
      session := .handshaking
      running := true
      failed := false
      taskFailed := false } := by
    have hstart : runEvent (.startSession .handshake) s = _ := beginSession_of_idle .handshake h
    rw [show handshakeScript.take 2 = [.startSession .handshake, sendOk 0x06 []] from rfl, runEvents_cons, hstart,
      andThen_next, runEvents_cons, runEvent_sendOk_empty (.inl rfl)]; rfl
  refine ⟨hopen, ?_⟩
  rw [← List.take_append_drop 2 handshakeScript, runEvents_append, hopen, andThen_next,
    show handshakeScript.drop 2 = [.stopSession, .joinSession] from rfl, runEvents_stop_join, endSession_of_handshaking rfl]
  simp [closeSession, State.setSession, State.setRunning, State.setFailed, State.setTaskFailed, h]

/-- Settles O48. -/
theorem recordStartPreparesReader : Obligations.RecordStartPreparesReader :=
  fun s h => ⟨_, opened_buf s .recording, runEvents_recordStart h⟩

/-- Settles O49: opening, pieces and closing, each with what it writes. -/
theorem playWritesItsFrames : Obligations.PlayWritesItsFrames := by
  intro s fmt src script sent h hscript
  have hrun : ∃ pieces, script = playPieces fmt pieces ∧ sent = pieces ∧ ∀ c ∈ pieces, c.length ≤ 65535 := by
    rcases hscript with ⟨rfl, rfl⟩ | ⟨n, rfl, rfl⟩
    · exact ⟨_, rfl, rfl, chunksOf_fit fmt src⟩
    · exact ⟨_, rfl, rfl, fun c hc => chunksOf_fit fmt src c (List.mem_of_mem_take hc)⟩
  obtain ⟨_, rfl, rfl, hfit⟩ := hrun
  refine ⟨_, runEvents_playPieces h fmt hfit, rfl, rfl, rfl, rfl, rfl, rfl, rfl, rfl, rfl, ?_, opened_buf s .playing⟩
  rw [List.range_eq_range']; rfl

/-- Settles O50. -/
theorem recordEndReports : Obligations.RecordEndReports := by
  intro s hsession _ hfailed htask
  rw [runEvents_recordStop hsession, reportRecording_of_sound hfailed htask]
  simp [State.closed, State.observe, Config.wavParams, hfailed, htask]

/-- Settles O53: what is left of a failed operation passes over its pieces and closes. -/
theorem failedOperationShutsDown : Obligations.FailedOperationShutsDown := by
  rintro s pieces k script stop -
    (⟨hsession, hfailed, rfl, rfl⟩ | ⟨hsession, hfailed, rfl, rfl⟩)
  · rw [runEvents_recordStop hsession, reportRecording_of_failed hfailed]; rfl
  · have hpieces : runEvents (audioSends k pieces) s = .next s := by
      rcases hfailed with hfailed | rfl
      · exact runEvents_audioSends_of_failed hsession hfailed k pieces
      · rfl
    rw [runEvents_append, hpieces, andThen_next, runEvents_playStop hsession]; rfl

/-- Settles O55: the reads leave the session and the transport, and the closing does the rest. -/
theorem recordAlwaysSendsItsStop : Obligations.RecordAlwaysSendsItsStop := by
  intro s reads h hcap
  obtain ⟨u, hu, hsession, hwire⟩ :=
    runEvents_reads (s := (s.opened .recording).pushWire [0xAA, 0x55, 0x01, 0x00, 0x00, 0x01]) hcap reads
  obtain ⟨os, hreport⟩ := reportRecording_eq u
  have hrun : runEvents (recordStartScript ++ reads.map .read ++ recordStopScript) s =
      .next ((reportRecording u).closed 0x02) := by
    rw [runEvents_append, runEvents_append, runEvents_recordStart h, andThen_next, hu, andThen_next,
      runEvents_recordStop hsession]
  refine ⟨_, hrun, ?_, rfl, rfl, rfl, rfl, rfl, rfl⟩
  rw [hreport, State.closed, hwire]; rfl

/-- Settles O56: the failing write fails the Play, which then passes over the later pieces and closes. -/
theorem playWithFailedWriteSendsItsStop : Obligations.PlayWithFailedWriteSendsItsStop := by
  intro s fmt before after piece n h hfit
  obtain ⟨hbefore, hpiece⟩ := List.forall_mem_append.1 hfit
  have hp : piece.length ≤ 65535 := hpiece piece (List.mem_singleton_self piece)
  have hstart := runEvents_playStart h fmt
  rw [runEvents_append, runEvents_append, runEvents_append, runEvents_append, ← sendOk, ← sendOk, hstart, andThen_next,
    runEvents_audioSends rfl 0 hbefore, andThen_next, runEvents_failingSend n rfl rfl hp, andThen_next,
    runEvents_audioSends_of_failed rfl rfl, andThen_next, runEvents_playStop rfl]
  refine ⟨_, rfl, rfl, ?_, rfl, rfl, rfl, rfl, rfl, rfl⟩
  rw [List.range_eq_range']; rfl

end Sys2Proof.Machine
end
